-- ==== Sys2Proof/Word.lean ====
section
/-! DEFINITION. The word types of Grehielm and the small operations on fixed arrays that every other file uses. -/

namespace Sys2Proof

/-- R14: a register word is 32 bits. -/
abbrev Word := BitVec 32
abbrev Byte := BitVec 8
/-- R14: a line is 64 bytes; byte `i` is bits `8i+7 .. 8i` (R12). -/
abbrev Line := BitVec 512
/-- R108: a joined pair's line is 128 bytes, half 0 (the leader's) in the low 64 bytes. -/
abbrev PairLine := BitVec 1024

/-- R8: modules HLM0 to HLM19. -/
abbrev Mod := Fin 20
/-- R5: channels CH0 to CH63. -/
abbrev Ch := Fin 64
/-- R101: pairs (groups) 0 to 31: channels c and c + 32. -/
abbrev PairIx := Fin 32
/-- R7: global ports P0 to P319. -/
abbrev PortK := Fin 320
/-- Mailbox channels MB0 to MB23. -/
abbrev Mb := Fin 24
abbrev SemIx := Fin 32
/-- R8: event sources EV0 to EV359. -/
abbrev Ev := Fin 360
abbrev Pc := Fin 2
abbrev SidIx := Fin 4
/-- A bank of a channel: 64 * pc + 16 * sid + b, with b the index of R102. -/
abbrev BankIx := Fin 128
/-- Transaction-table entry number (R122). -/
abbrev EntryIx := Fin 256
/-- R340: the 11-bit identity of an access. -/
abbrev Ident := BitVec 11

/-- Update one element of a fixed array. -/
def upd {α : Type} {n : Nat} (v : Vector α n) (i : Fin n) (f : α → α) : Vector α n :=
  v.set i.val (f (v.get i)) i.isLt

/-- A Boolean as one bit. -/
def bit1 (b : Bool) : BitVec 1 := BitVec.ofBool b

end Sys2Proof
end

