-- ==== Sys2Proof/Syntax.lean ====
section
/-! DEFINITION. The commands of Grehielm: one constructor of `Instr` per row of spec/opcode_table.json, with the data
that each command brings in from outside (a message, a register value, a reading, a result of the core dies). -/

namespace Sys2Proof

/-- R73: the header fields of a request message beside the opcode. -/
structure ReqHdr where
  port : BitVec 4
  tag  : BitVec 10
  szf  : BitVec 4
  addr : BitVec 40
  deriving DecidableEq, Repr

/-- R102: a place in a channel. -/
structure Loc where
  pc  : BitVec 1
  sid : BitVec 2
  bg  : BitVec 2
  ba  : BitVec 2
  row : BitVec 14
  col : BitVec 4
  deriving DecidableEq, Repr

/-- R216: an error of one symbol of a received word: its codeword position and the XOR of its value. -/
structure SymErr where
  pos : Nat
  xor : BitVec 8
  deriving DecidableEq, Repr

/-- R290: one measurement of one lane on one sampler: the edges of the eye, in taps, none where not located. -/
structure Eye where
  left  : Nat
  right : Nat
  deriving DecidableEq, Repr

/-- R290: the measurements of a lane, in order, none for one without a result: of its read eye on sampler A and on sampler
B, and of its transmit eye (of a command lane: the loopback eye). A pause makes up to three of each, boot training up to
three triples. -/
structure LaneMeas where
  lane : Nat
  a    : List (Option Eye)
  b    : List (Option Eye)
  tx   : List (Option Eye)
  deriving DecidableEq, Repr

/-- R280: the BL16 burst that a TMP returns for one SID of one channel. -/
structure TmpSample where
  n     : Ch
  sid   : SidIx
  burst : BitVec 512
  deriving DecidableEq, Repr

/-- R280, R281, R287: the BL16 bursts that MRRs of one core die return for one channel at T3, by address. -/
structure DieRead where
  n   : Ch
  sid : SidIx
  mr  : List (Nat × BitVec 512)
  deriving DecidableEq, Repr

/-- R287, R290: what boot training measures of one lane: of a pseudo-channel's group, or a command lane of the channel. -/
structure BootLane where
  n    : Ch
  pc   : Option Pc
  meas : LaneMeas
  deriving DecidableEq, Repr

/-- What a boot step finds in the parts outside the block's logic: BIST of the management SRAMs (B4; bit 0 Priri SRAM,
bit 1 the others), channels whose first T7 found an uncorrectable word at a warm boot (R289), the lanes measured by a full
training (R288; a lane not listed has eyes that pass), channels whose T7 after it found one, and the mode registers read
(R100, R120). -/
structure BootReport where
  mgmtPass : BitVec 2
  retrain  : BitVec 64
  lanes    : List BootLane
  t7bad    : BitVec 64
  dies     : List DieRead
  deriving DecidableEq, Repr

/-- R452: a lane of a channel of the group that has failed the continuity test: of a pseudo-channel's group, or of the command
lanes. -/
structure OpenLane where
  i    : Fin 8
  pc   : Option Pc
  lane : Nat
  deriving DecidableEq, Repr

/-- R452: what BIST finds of the eight channels of a group: the ones whose SRAMs fail, and the lanes without continuity. -/
structure BistChans where
  fail  : BitVec 8
  opens : List OpenLane
  deriving DecidableEq, Repr

/-- R247, R377: range, mode, pattern and pace of a pass. -/
structure ScrubArgs where
  start   : BitVec 64
  len     : BitVec 64
  mode    : BitVec 2
  pattern : BitVec 64
  pace    : BitVec 32
  deriving DecidableEq, Repr

/-- Firmware-owned registers (R154, R247, R271, R307, R339, R361, R411): the manual names register and purpose and no
layout, so a firmware write names the field. -/
inductive FwReg where
  | tim (n : Ch) (rule : Fin 27)
  | zciSelfRefresh (n : Ch)
  | zciPowerDown (n : Ch)
  | zciPreab (n : Ch) (pc : Pc) (sid : SidIx)
  | zciRefab (n : Ch) (pc : Pc) (sid : SidIx)
  | mrw (n : Ch) (sid : SidIx) (addr : BitVec 8)
  | mrr (n : Ch) (sid : SidIx) (pc : Pc) (addr : BitVec 8)
  | eraseSet (n : Ch) (pc : Pc) (lane : Fin 36)
  | refMode (n : Ch)
  | rateMin (n : Ch)
  | distThresh (n : Ch)
  | distPace (n : Ch)
  | rxTap (n : Ch) (pc : Pc) (lane : Fin 38)
  | rxSampler (n : Ch) (pc : Pc) (lane : Fin 38)
  | txTap (n : Ch) (pc : Pc) (lane : Fin 38)
  | cmdTap (n : Ch) (lane : Fin 20)
  | spareSel (n : Ch) (pc : Pc)
  | spareCmd (n : Ch)
  | recalEn (n : Ch)
  | urgentPause (n : Ch)
  | marginBoot (n : Ch)
  | marginWarn (n : Ch)
  | marginFail (n : Ch)
  | monThresh (n : Ch)
  | pwrMode
  | pwrQuiet
  | pwrDeferMax
  | eyePeriod
  | eyeWakeHi
  | thermCap
  | thermWarn
  | thermThrottle
  | critCap
  | logMask (e : Ev)
  | i3cIbiEnable (t : Fin 4)
  | remapInstall (n : Ch) (col : BitVec 4)
  | remapRelease (n : Ch) (i : Fin 16)
  | pprStart (n : Ch) (hard : Bool)
  | scrubShare (n : Ch) (a : ScrubArgs)
  | trainCtrl (n : Ch)
  | beatAlign (n : Ch) (pc : Pc)
  | seqSwitch (d : Fin 39)
  | thermFloor
  | thermBmax
  | thermParam (i : Fin 7)
  | thermState (i : Fin 3)
  | hlmTrim (m : Mod) (word : Fin 63)
  | linkFw (m : Mod)
  | wdtPeriod
  | wdtService
  | i3cStatic
  | i3cProvId (t : Fin 4) (high : Bool)
  | fuseShadow (region : Fin 8) (word : Fin 1024) (on : Bool)
  deriving DecidableEq, Repr

/-- R400: an access that reaches the fabric in one MC cycle with others. -/
structure TiedAcc where
  who : Ident
  off : BitVec 24
  wr : Option Word
  deriving DecidableEq, Repr

/-- The target of a register write: an offset of the control space, or (firmware only) a named firmware field. -/
inductive RegTarget where
  | off (a : BitVec 24)
  /-- R357, R400: an offset, written in one MC cycle with the accesses `l`. -/
  | tied (a : BitVec 24) (l : List TiedAcc)
  | fw (r : FwReg)
  deriving DecidableEq, Repr

/-- R408: the posted domains. -/
inductive PostDom where
  | aon
  | tsv (n : Ch)
  deriving DecidableEq, Repr

/-- R420: what firmware does with a packet of its own. -/
inductive FwLogAct where
  | openPkt (attention : Bool) (code : BitVec 16) (declared : Nat)
  | payload (w : Word)
  | closePkt
  deriving DecidableEq, Repr

/-- R243: what the checks find as a request or a response leaves its unit: nothing, a crossbar transfer that fails once or
twice, a message header whose parity fails, an uncorrectable word of the module's queue or buffer; or, in a gap that no check
covers (R471), an upset of the place that a request goes to, or of the data that it or a response carries. -/
inductive Upset where
  | none | xferOnce | xferTwice | header | store
  | place (l : Loc)
  | data (x : Line)
  deriving DecidableEq, Repr

/-- R235, R237, R381: the repair sequence of engine `n` ends; `ok`: it has not failed. -/
structure SeqEnd where
  n : Ch
  ok : Bool
  deriving DecidableEq, Repr

/-- R29, R243: a crossbar port takes a request for channel `n`, with what the checks find. -/
structure ReqGrant where
  n : Ch
  u : Upset
  deriving DecidableEq, Repr

/-- R30, R243: a crossbar port of module `m` takes a response, with what the checks find. -/
structure RespGrant where
  m : Mod
  u : Upset
  deriving DecidableEq, Repr

/-- R243: a request that goes to no channel, and whether the parity of its header fails in the module. -/
structure CtlHdr where
  hdr : ReqHdr
  bad : Bool
  deriving DecidableEq, Repr

/-- R243: an uncorrectable word in the line buffer or in the repair buffer of an engine; or an upset that no check covers of what
the atomic unit or the encoder leaves in a slot (R471). -/
inductive StoreUpset where
  | none | slot (i : Fin 16) | line (i : Fin 16)
  | data (i : Fin 16) (x : BitVec 1024)
  deriving DecidableEq, Repr

/-- R135, R231, R243: the atomic unit of channel `n` works; `bad`: the words of the slot it works on are uncorrectable;
`errs`: the errors in the spare line it works on; `upset`: what has become uncorrectable in the engine's buffers. -/
structure UnitOp where
  n : Ch
  bad : Bool
  errs : List SymErr
  upset : StoreUpset
  deriving DecidableEq, Repr

/-- One constructor per row of the table. -/
inductive Instr where
  -- flit layer (chapter 02)
  | flitReceive (m : Mod) (flit : BitVec 2048)
  | flitTransmit (m : Mod)
  | replayTimeout (m : Mod)
  | nakHoldoffExpiry (m : Mod)
  | retryWindowClose (m : Mod)
  -- requests (chapters 02, 06)
  | nop (m : Mod) (h : ReqHdr)
  | rd64 (m : Mod) (h : ReqHdr)
  | rd128 (m : Mod) (h : ReqHdr)
  | ldr (m : Mod) (h : ReqHdr)
  | hint (m : Mod) (h : ReqHdr)
  | wr64 (m : Mod) (h : ReqHdr) (data : Line)
  | wrp (m : Mod) (h : ReqHdr) (mask : BitVec 64) (data : Line)
  | stc (m : Mod) (h : ReqHdr) (value : BitVec 64)
  | amoAdd (m : Mod) (h : ReqHdr) (a : BitVec 64)
  | amoSwap (m : Mod) (h : ReqHdr) (a : BitVec 64)
  | amoAnd (m : Mod) (h : ReqHdr) (a : BitVec 64)
  | amoOr (m : Mod) (h : ReqHdr) (a : BitVec 64)
  | amoXor (m : Mod) (h : ReqHdr) (a : BitVec 64)
  | amoSmin (m : Mod) (h : ReqHdr) (a : BitVec 64)
  | amoSmax (m : Mod) (h : ReqHdr) (a : BitVec 64)
  | amoUmin (m : Mod) (h : ReqHdr) (a : BitVec 64)
  | amoUmax (m : Mod) (h : ReqHdr) (a : BitVec 64)
  | amoCas (m : Mod) (h : ReqHdr) (cmp swp : BitVec 128)
  | fenceW (m : Mod) (h : CtlHdr)
  | fenceAll (m : Mod) (h : CtlHdr)
  | fenceComplete (m : Mod) (port : BitVec 4)
  | cfgRd (m : Mod) (h : CtlHdr)
  | cfgWr (m : Mod) (h : CtlHdr) (v : Word)
  | srEnter (m : Mod) (h : CtlHdr)
  | srEnterAcceptanceArrival (m : Mod)
  | portDrainComplete (m : Mod) (port : BitVec 4)
  -- module link reset and training (chapter 02)
  | hostLinkResetRequest (m : Mod)
  | moduleDrainComplete (m : Mod)
  | retrain (who : Ident) (m : Mod) (v : Word)
  | linkTrainingDone (m : Mod) (rate16 : Bool) (repaired : BitVec 4)
  | trainingRetry (m : Mod)
  -- crossbar and channel engine (chapters 01, 04, 06, 07)
  | crossbarRequestGrant (g : ReqGrant)
  | crossbarResponseGrant (g : RespGrant)
  | schedulerCc (n : Ch) (cc : Nat)
  | entryIndexNotice (m : Mod) (n : Ch) (i : EntryIx)
  | entryAged (n : Ch) (i : EntryIx)
  | writeAgeExpiry (n : Ch) (pc : Pc)
  | readDataDecode (n : Ch) (i : EntryIx) (errs : List SymErr)
  | writeBurstDone (n : Ch) (i : EntryIx)
  | atomicUnitOp (g : UnitOp)
  | lineBufferIdleExpiry (n : Ch) (slot : Fin 16)
  | pageTimeout (n : Ch) (b : BankIx)
  | hintTimeout (n : Ch) (i : EntryIx)
  | reservationProtectionExpiry (n : Ch) (k : PortK)
  -- traffic control (chapter 05)
  | refillBoundary
  | capArrival (n : Ch)
  | gateCycleStart (n : Ch)
  | gateEntryEnd (n : Ch)
  | gateCommit (who : Ident) (n : Ch) (v : Word)
  | applyRates (who : Ident) (k : PortK) (v : Word)
  | portClassChange (who : Ident) (k : PortK) (v : Word)
  | hwmClr (who : Ident) (k : PortK) (v : Word)
  | classHwmClear (who : Ident) (n : Ch) (v : Word)
  | policeWindowClose (m : Mod)
  | ceWindowClose (n : Ch)
  | laneMonitorWindow (n : Ch)
  -- refresh and trackers (chapter 08)
  | refreshTick (n : Ch) (b : BankIx)
  | tmpDue (n : Ch) (sid : SidIx)
  | tmpReading (n : Ch) (sid : SidIx) (burst : BitVec 512)
  | trackerEpochBoundary (n : Ch) (b : BankIx)
  | sweepDeadline (n : Ch) (b : BankIx)
  | trackerDrainDone (n : Ch) (b : BankIx)
  -- recalibration (chapter 09)
  | recalPauseStart (n : Ch) (pc : Pc)
  | urgentPauseStart
  | pauseClosed (n : Ch) (pc : Pc)
  | pauseMeasurementDone (n : Ch) (pc : Pc) (ms cms : List LaneMeas)
  | pauseEnd (n : Ch) (pc : Pc)
  | requalSweepDone (n : Ch) (pc : Pc) (lane : Fin 36)
  -- command errors and engine recovery (chapter 16)
  | caerrAssert (n : Ch)
  | caerrDeassert (n : Ch)
  | caerrRecoveryWaitDone (n : Ch)
  | schedulerWatchdog (n : Ch)
  | illegalControlState (n : Ch)
  | engineRecoveryDone (n : Ch)
  -- scrub, remap, repair, pairs, channel reset (chapters 07, 16)
  | scrubPaceTick (n : Ch) (loc : Loc)
  | scrubShareDone (n : Ch)
  | scrubPassEnd
  | remapFillDone (n : Ch) (i : Fin 16)
  | softRepairSequenceDone (x : SeqEnd)
  | hardRepairSequenceDone (x : SeqEnd)
  | twinwingTransitionBegin (c : PairIx)
  | twinwingTransitionDone (c : PairIx)
  | channelResetDone (n : Ch) (t7ok : Bool)
  -- thermal control (chapter 10)
  | baseDieSensorReading (n : Ch) (t : BitVec 8)
  | tripColumnWindowExpiry (n : Ch)
  | tripCheck (tmps : List TmpSample)
  | criticalCapEnd (n : Ch)
  | thermalModelStep
  | budgetRefill
  -- power states (chapter 10)
  | pririWait
  | quietTimeExpiry
  | deferMaxExpiry
  | srEnterDeferralEnd
  | entryStepComplete
  | parkRefused (m : Mod)
  | pupaRefreshBurstStart (n : Ch) (pc : Pc)
  | pupaRefreshBurstDone (n : Ch) (pc : Pc)
  | flitActivityWake (m : Mod)
  | sidebandExitRequest (m : Mod)
  | wakePattern (m : Mod) (transitions : Nat)
  | pllLock
  | powerUpStepReady (d : Fin 39)
  | wakeComplete (m : Mod)
  | i3cAddressMatch
  | eyespotVisitStart
  | eyespotVisitEnd (base : Vector (BitVec 8) 64) (tmps : List TmpSample)
  | refclkLoss
  | pllLockLoss
  | refclkLossSequenceDone
  -- resets and boot (chapter 15)
  | pwrgoodRise
  | pwrgoodFall
  | rstNAssert
  | rstNRelease
  | bootStepComplete (r : BootReport)
  | warmBootStepComplete (r : BootReport)
  | staggerGrant
  | staggerGrantLow
  | staggerGrantTimeout
  | bistGroupDone (chFail : BistChans) (modFail : BitVec 3)
  | stagingGo (who : Ident) (v : Word)
  | imageVerifyDone
  | deliveryTimeout
  | fuseOpAck (rdata : BitVec 39)
  | fuseReadTimeout
  | fuseProgramTimeout
  | pririWatchdog
  | fwSramUncorrectable
  | pririRestartDone
  | warmResetDelayExpiry
  -- register fabric (chapter 13)
  | registerWrite (who : Ident) (t : RegTarget) (v : Word)
  | mapCfgWrite (who : Ident) (v : Word)
  | postedWriteEffect (d : PostDom)
  | aliasWrite (who : Ident) (a : BitVec 24) (v : Word)
  | semRead (who : Ident) (i : SemIx)
  | semWrite (who : Ident) (i : SemIx) (v : Word)
  -- events and the Silk log (chapters 13, 14)
  | eventOccurrence (e : Ev)
  | eventAck (who : Ident) (e : Ev) (v : Word)
  | eventHoldoffExpiry (e : Ev)
  | i3cIbiEnabled (t : Fin 4)
  | i3cIbiNack (t : Fin 4)
  | i3cRegisterWrite (t : Fin 4) (bytes : List Byte)
  | i3cRegisterRead (t : Fin 4) (bytes : List Byte)
  | i3cStatusRead (t : Fin 4)
  | logPacketWrite
  | fwLogPacket (a : FwLogAct)
  | logPacketTimeout
  | logSwapTimer
  | logBankSwap
  | logPop (who : Ident)
  | flush (who : Ident) (v : Word)
  -- mailboxes (chapter 11)
  | mailboxInboundWrite (who : Ident) (k : Mb) (v : Word)
  | outTake (who : Ident) (k : Mb) (v : Word)
  | fwTake (k : Mb)
  | fwPost (k : Mb)
  | windowHold (k : Mb)
  | windowWaitExpiry (k : Mb)
  -- Exaux commands (chapter 12): the command that firmware took from MBk with this tag
  | getVersion (k : Mb) (tag : BitVec 2)
  | setMailboxOwner (k : Mb) (tag : BitVec 2)
  | powerStateEnter (k : Mb) (tag : BitVec 2)
  | powerStateSetIdle (k : Mb) (tag : BitVec 2)
  | powerStateClearIdle (k : Mb) (tag : BitVec 2)
  | idlePolicyExpiry
  | thermalPolicyGet (k : Mb) (tag : BitVec 2)
  | thermalPolicySetFloor (k : Mb) (tag : BitVec 2)
  | thermalPolicySetThresholds (k : Mb) (tag : BitVec 2)
  | refreshFloor (k : Mb) (tag : BitVec 2)
  | trackerPolicy (k : Mb) (tag : BitVec 2)
  | scrubStart (k : Mb) (tag : BitVec 2)
  | scrubAbort (k : Mb) (tag : BitVec 2)
  | scrubStatus (k : Mb) (tag : BitVec 2)
  | remapInstall (k : Mb) (tag : BitVec 2)
  | remapRelease (k : Mb) (tag : BitVec 2)
  | pprSoft (k : Mb) (tag : BitVec 2)
  | pprHard (k : Mb) (tag : BitVec 2)
  | laneSpare (k : Mb) (tag : BitVec 2)
  | twinwingEnter (k : Mb) (tag : BitVec 2)
  | twinwingExit (k : Mb) (tag : BitVec 2)
  | channelDisablePersistent (k : Mb) (tag : BitVec 2)
  | channelDisableVolatile (k : Mb) (tag : BitVec 2)
  | channelDisableWithdraw (k : Mb) (tag : BitVec 2)
  | fuseRead (k : Mb) (tag : BitVec 2)
  | fuseShadowSet (k : Mb) (tag : BitVec 2)
  | fuseShadowClear (k : Mb) (tag : BitVec 2)
  | fuseProgram (k : Mb) (tag : BitVec 2)
  | fuseLock (k : Mb) (tag : BitVec 2)
  | attest (k : Mb) (tag : BitVec 2)
  | fwStage (k : Mb) (tag : BitVec 2)
  | fwCommit (k : Mb) (tag : BitVec 2)
  | logConfigGet (k : Mb) (tag : BitVec 2)
  | logConfigSet (k : Mb) (tag : BitVec 2)
  | logConfigFlush (k : Mb) (tag : BitVec 2)
  | bistResults (k : Mb) (tag : BitVec 2)
  | resetWarm (k : Mb) (tag : BitVec 2)
  | resetChannel (k : Mb) (tag : BitVec 2)
  | resetPriri (k : Mb) (tag : BitVec 2)
  -- wrapper and debug windows (chapter 15)
  | wsBypass
  | wsExtest
  | wsIntest
  | ghBistLaunch (mask : BitVec 88)
  | ghBistResult
  | ghDbgReg (j : Fin 4) (u : BitVec 64)
  | ghCodecTest
  | ghFactoryClose (v : Word)
  | ttSnapshot (who : Ident) (n : Ch) (v : Word)
  | trackerSnapshot (who : Ident) (n : Ch) (v : Word)
  -- link training, clock and fuse port, continued
  | linkTrainingFailure (m : Mod)
  | refclkValid
  | pllLockTimeout
  | fuseAckLow
  deriving DecidableEq, Repr

end Sys2Proof
end

