-- ==== Sys2Proof/Decode.lean ====
section
/-! DEFINITION. Words of commands: the table of commands gives its rows no bits (every row's encoding is empty), so no
word spells a command. The encodings that the spec does give (flits, messages, ZCI frames) are in
Machine/Operands.lean. -/

namespace Sys2Proof

/-- No row of the table has bits: no word spells a command. -/
def decodeTableWord (_nbits _w : Nat) : Option Instr := none

end Sys2Proof
end

