-- ==== Sys2Proof/Config.lean ====
section
/-! DEFINITION. What the spec leaves open: uninterpreted constants. None has a body, so no proof can see a value. -/

namespace Sys2Proof.Config

/-- A free value of `w` bits, drawn at the running counter of the state (log entry 4, DESIGN CHOICE). -/
opaque freeBits (w : Nat) (n : Nat) : BitVec w

/-- A free choice among the classes the spec allows for a word beyond correction (R219, R225; log entry 4, DESIGN CHOICE). -/
opaque freeChoice (k : Nat) (n : Nat) : Nat

/-- Reads of firmware ranges: the word at an offset shows the values of the firmware-owned registers of its block, in a
layout that is not stated (R398; log entry 9, DESIGN CHOICE). -/
opaque fwRangeValue (off : Nat) (values : List Nat) : BitVec 32

/-- Versions reported by GET_VERSION and the attestation (R370; log entry 8, DESIGN CHOICE). -/
opaque fwVersion : BitVec 32
opaque romVersion : BitVec 32

/-- Parameters of the thermal model, fitted at bring-up (R334; log entry 8, DESIGN CHOICE): tau_d us, tau_s ms, theta_ds and theta_sa
mdegC/W, P_base mW, e_act and e_col pJ. -/
opaque tauD : Nat
opaque tauS : Nat
opaque thetaDs : Nat
opaque thetaSa : Nat
opaque pBase : Nat
opaque eAct : Nat
opaque eCol : Nat

/-- SHA-384 and ECDSA P-384 are other documents' functions (R389, R390, R438; log entry 8, DESIGN CHOICE). -/
opaque sha384 (b : List (BitVec 8)) : BitVec 384
opaque ecdsaVerify (key : BitVec 768) (digest : BitVec 384) (sig : BitVec 768) : Bool
/-- Attestation key pair derived from the secret and the Merrov digest (R389). -/
opaque attestPublic (secret : BitVec 256) (digest : BitVec 384) : BitVec 768
opaque attestSign (secret : BitVec 256) (digest : BitVec 384) (report : List (BitVec 8)) : BitVec 768

/-- Check bits of two SECDED codes whose matrices the spec does not give (R123, R442; log entry 11, DESIGN CHOICE). -/
opaque ttCheck (b : BitVec 104) : BitVec 8
/-- R446: the unit that a word of region 0 from word 8 on trims: a module (0 to 19), a channel (20 to 83), or sensors. The
spec gives no assignment (log entry 11, DESIGN CHOICE). -/
opaque trimUnit (word : Nat) : Nat
opaque fuseCheck (w : BitVec 32) : BitVec 7

end Sys2Proof.Config
end

