-- ==== Sys2Proof/Machine/State.lean ====
section
/-! DEFINITION. Every piece of state the spec gives Grehielm, as plain data, with its reset value as the default of the
field. Where the spec gives no reset value the log entry is named. -/

namespace Sys2Proof.Machine

/-! ## Clock and time -/

/-- Clocks (R42 to R49, R157) and GLB_CLK_STATUS (R410). -/
structure Clock where
  /-- MODEL: time of the run in ns (one CC); log entry 2, DESIGN CHOICE. -/
  now : Nat := 0
  /-- R157: the traffic time base. -/
  timeBase : BitVec 64 := 0
  /-- MODEL: time base of the latest refill boundary carried out (R157); log entry 2, DESIGN CHOICE. -/
  lastRefill : Nat := 0
  pllLock : Bool := false
  refclkOk : Bool := false
  mgmtOsc : Bool := true
  aonOsc : Bool := true
  trims : Bool := false
  rate : BitVec 2 := 0
  /-- MODEL: the counter that free values are drawn at; log entry 4, DESIGN CHOICE. -/
  freeCtr : Nat := 0
  /-- R44, R47: the PLL is enabled and not yet locked. -/
  pllEnabled : Bool := false
  /-- When the PLL was enabled (R314: 8 us to lock). -/
  pllEnabledAt : Nat := 0
  deriving DecidableEq, Repr

/-! ## Host-link modules -/

/-- HLMm_LINK_STATUS.state (R98). -/
inductive LinkState where
  | down | training | active | parked | reset | unusable
  deriving DecidableEq, Repr

/-- R124, and the requests that take no table entry. -/
inductive RKind where
  | rd64 | rd128 | ldr | hint | wr64 | wrp | stc | amo | mrd | mwr | fenceW | fenceAll | cfgRd | cfgWr | srEnter
  deriving DecidableEq, Repr

/-- R87: credit kinds. -/
inductive Credit where
  | none | read | write | ctrl
  deriving DecidableEq, Repr

/-- A parsed request message (R73, R75); `data` holds the data slots in order. -/
structure Msg where
  opc  : BitVec 6
  hdr  : ReqHdr
  data : BitVec 576
  deriving DecidableEq, Repr

/-- An accepted memory request, in the ingress queue or the posted-write buffer (R31, R34). -/
structure Rq where
  /-- Order of acceptance in the module. -/
  seq : Nat
  kind : RKind
  port : BitVec 4
  tag : BitVec 10
  cls : BitVec 4
  /-- The channel whose table it enters (the leader for a joined pair). -/
  ch : Ch
  twin : Bool
  half : Bool
  loc : Loc
  addr : BitVec 40
  data : BitVec 512
  mask : BitVec 64
  aop : BitVec 4
  asz : BitVec 2
  nr : Bool
  yellow : Bool
  accAt : Nat
  /-- R196: accepted while a fence of its port was incomplete, and not yet released. -/
  held : Bool
  /-- R156: order number from which the port has had its present class. -/
  after : Nat
  deriving DecidableEq, Repr

/-- R86, R472, R473: an outstanding tag with the order of acceptance, destination channel and entry index. -/
structure TagRec where
  port : BitVec 4
  tag : BitVec 10
  seq : Nat
  kind : RKind
  ch : Option Ch
  idx : Option EntryIx
  accAt : Nat
  /-- Its request is, or has since been, refused, and its response is not yet sent; and whether it was ever accepted. -/
  refused : Bool := false
  accepted : Bool := true
  /-- R80: low word of its address, for an ERROR. -/
  aux : Word := 0
  deriving DecidableEq, Repr

/-- A response waiting to be packed into a flit (R80); `credit` returns when its header is placed (R88). -/
structure OutMsg where
  opc : BitVec 6
  port : BitVec 4
  tag : BitVec 10
  status : BitVec 4
  poison : Bool
  dsz : BitVec 3
  aux : Word
  data : BitVec 1024
  credit : Credit
  /-- Its sending retires the request's tag (R86); not so for a request refused because the tag was outstanding. -/
  retire : Bool := true
  deriving DecidableEq, Repr

/-- An EVENT message waiting in a module (R93, R417); the count is read when it is sent. -/
structure EvMsg where
  e : Ev
  port : BitVec 4
  deriving DecidableEq, Repr

/-- A DATA flit held for replay (R67, R69). -/
structure TxFlit where
  seq : BitVec 12
  fhs : BitVec 5
  rcr : BitVec 6
  wcr : BitVec 6
  ccr : BitVec 4
  slots : BitVec 1920
  sends : Nat
  sentAt : Nat
  deriving DecidableEq, Repr

/-- R195: an accepted fence. -/
structure Fence where
  seq : Nat
  port : BitVec 4
  tag : BitVec 10
  all : Bool
  /-- It is complete, and its FENCE_DONE is on its way (R196). -/
  done : Bool := false
  deriving DecidableEq, Repr

/-- R91: a control-space access waiting for its turn and drain; `started` once it has been handed to the fabric. -/
structure CfgReq where
  seq : Nat
  port : BitVec 4
  tag : BitVec 10
  write : Bool
  off : BitVec 24
  v : Word
  held : Bool
  started : Bool
  deriving DecidableEq, Repr

/-- R198: an ERROR response held until the writes accepted before it have drained. -/
structure HeldErr where
  seq : Nat
  port : BitVec 4
  tag : BitVec 10
  code : BitVec 4
  aux : Word
  retire : Bool
  deriving DecidableEq, Repr

/-- R72, R167, R224: an open counting window. -/
structure Window where
  openedAt : Nat
  length : Nat
  thresh : Nat
  count : Nat
  deriving DecidableEq, Repr

/-- The transmit and receive state of the flit layer (R61 to R71). -/
structure FlitState where
  txSeq : BitVec 12 := 0
  /-- Sequence number of the last DATA flit sent. -/
  txLast : Option (BitVec 12) := none
  replay : List TxFlit := []
  /-- Sequence number at which a replay in progress stands. -/
  replayAt : Option (BitVec 12) := none
  txSlots : List (Bool × BitVec 64) := []
  rxNext : BitVec 12 := 0
  ackv : Bool := false
  nakPending : Bool := false
  nakSentAt : Option Nat := none
  rxPart : List (BitVec 64) := []
  inbox : List Msg := []
  last : Option (BitVec 2048) := none
  deriving DecidableEq, Repr

/-- One host-link module (chapters 02, 05, 06). -/
structure Hlm where
  link : LinkState := .down
  rate16 : Bool := false
  lanesRepaired : BitVec 4 := 0
  linkResets : BitVec 8 := 0
  retryThresh : BitVec 8 := 0x10
  maxRate : BitVec 2 := 0
  replayCnt : BitVec 32 := 0
  proto : BitVec 16 := 0
  nocredit : BitVec 8 := 0
  tagdup : BitVec 8 := 0
  flit : FlitState := {}
  crRead : Nat := 512
  crWrite : Nat := 256
  crCtrl : Nat := 16
  dueRead : Nat := 0
  dueWrite : Nat := 0
  dueCtrl : Nat := 0
  retryWin : Option Window := none
  policeWin : Option Window := none
  refuseThresh : BitVec 16 := 0x0100
  policeCnt : BitVec 32 := 0
  classOvh : Vector (BitVec 8) 16 := Vector.replicate 16 0
  tags : List TagRec := []
  posted : List Rq := []
  ingress : List Rq := []
  fences : List Fence := []
  cfgq : List CfgReq := []
  errs : List HeldErr := []
  txq : List OutMsg := []
  evq : List EvMsg := []
  /-- R94: check 6 fails in this module. -/
  srBlocked : Bool := false
  /-- R94: the SR_ENTER accepted here, whose WACK is owed at E4. -/
  srTag : Option (BitVec 4 × BitVec 10) := none
  /-- MODEL: next order number of an accepted request. -/
  seq : Nat := 0
  /-- MODEL: number of link resets, so that responses to voided tags are told apart (R36). -/
  epoch : Nat := 0
  /-- R30: next channel port of the response round robin; reset value log entry 6, DESIGN CHOICE. -/
  rr : Fin 64 := 0
  /-- R29: CC of the latest request sent to a channel port, and the ports sent to in it; CC of the latest response
  taken, and the number taken in it. -/
  reqCc : Nat := 0
  reqTo : List Ch := []
  respCc : Nat := 0
  respN : Nat := 0
  usable : Bool := true
  /-- R98: retrains asked for in-band here, which wait for their WACK (port, tag) to be sent, with the module to reset. -/
  retrains : List (BitVec 4 × BitVec 10 × Mod) := []
  /-- R57: the rate of the training attempt in progress: 16 GT/s; and when the latest attempt started. -/
  trainAt16 : Bool := false
  lastTry : Nat := 0
  /-- R58: when the latest flit was sent. -/
  flitAt : Option Nat := none
  /-- R24: the drain of a module link reset is complete. -/
  drained : Bool := true
  /-- R38: halves of RD128s whose other half has not arrived. -/
  halves : List OutMsg := []
  /-- R57, R411: HLMm_LINK_FW. -/
  linkFw : BitVec 32 := 0
  deriving DecidableEq, Repr

/-- R159, R165: rates in 16 MB/s, depths in bytes. -/
structure Rates where
  cir : BitVec 16 := 0x3E80
  pir : BitVec 16 := 0x3E80
  cbs : BitVec 24 := 0xFFFFFF
  pbs : BitVec 24 := 0xFFFFFF
  deriving DecidableEq, Repr

/-- One request port (R186). -/
structure Port where
  cls : BitVec 4 := 3
  /-- R156: order number of the module at the latest change of cls. -/
  clsFrom : Nat := 0
  en : Bool := false
  chgMode : BitVec 2 := 0
  pend : Rates := {}
  force : Rates := {}
  applyPend : Bool := false
  /-- Levels in thousandths of a byte (R159); full at reset (R164). -/
  tokC : Nat := 16777215000
  tokP : Nat := 16777215000
  green : BitVec 32 := 0
  yellow : BitVec 32 := 0
  red : BitVec 32 := 0
  hwmLat : BitVec 32 := 0
  /-- R185: the largest sample of a CC. -/
  latIn : Option (Nat × BitVec 32) := none
  deriving DecidableEq, Repr

/-! ## Channel engines -/

/-- R117: the timing rules in table order, in CK (tREFW in us). Reset: typical 32 Gb die values; log entry 7, DESIGN CHOICE. -/
structure Timing where
  v : Vector Nat 27 := #v[28, 28, 56, 84, 4, 8, 24, 4, 8, 6, 36, 16, 4, 5, 16, 32, 8, 700, 320, 192, 16, 32, 2000, 16, 720,
    7800, 32000]
  deriving DecidableEq, Repr

/-- R125. -/
inductive EState where
  | chain | wait | hit | colrd | lb | colwr | resp | sram | hold
  deriving DecidableEq, Repr

/-- What a maintenance entry is for (R50, R223, R226, R232, R233, R235, R302). -/
inductive Purpose where
  | host
  | scrubRd | scrubWb | scrubInit
  | demandWb
  /-- Of a joined pair: whether the lane is the follower's. -/
  | requalRd (fol : Bool) (pc : Pc) (lane : Fin 36)
  | requalWb
  | remapFill (i : Fin 16) | remapRelease (i : Fin 16)
  | repairRd (i : Fin 16) | repairWr (i : Fin 16) | init
  deriving DecidableEq, Repr

/-- R206: a reservation. -/
structure Rsv where
  port : BitVec 9
  loc : Loc
  twin : Bool
  at_ : Nat
  prot : Bool
  deriving DecidableEq, Repr

/-- What a step of the age order means for the reservations of a channel (R200, R207 to R210, R468): a request that records
and clears none, an LDR, an STC, a store to the granule, the write-back of a scrub pass, a link reset of the port's module,
an engine recovery. -/
inductive RsvOp where
  | touch | ldr | stc | store | scrub | reset | clear
  deriving DecidableEq, Repr

/-- Such a step, kept in its place of the order while it or an older one is not decided; log entry 52, DEDUCED. -/
structure RsvEv where
  op : RsvOp
  /-- Its table entry, while it is not decided. -/
  idx : Option EntryIx
  port : BitVec 9
  loc : Loc
  twin : Bool
  at_ : Nat
  maint : Bool
  /-- R205, R207, R209, R222: the data of the LDR were good, the operation has stored; none while it is not known. -/
  done : Option Bool
  deriving DecidableEq, Repr

/-- R123: a live transaction-table entry with its data slot. -/
structure Entry where
  idx : EntryIx
  st : EState
  kind : RKind
  cls : BitVec 4
  gport : BitVec 9
  tag : BitVec 10
  loc : Loc
  passed : BitVec 7 := 0
  yellow : Bool := false
  twin : Bool := false
  half : Bool := false
  poison : Bool := false
  maint : Bool := false
  lb : BitVec 4 := 0
  arr : BitVec 16 := 0
  aop : BitVec 4 := 0
  asz : BitVec 2 := 0
  nr : Bool := false
  /-- Byte offset of an LDR, STC or AMO in its line. -/
  off : BitVec 6 := 0
  data : BitVec 1024 := 0
  mask : BitVec 128 := 0
  purpose : Purpose := .host
  /-- MODEL: time of entry (R183 latency). -/
  at_ : Nat := 0
  /-- MODEL: link epoch of the module (R36). -/
  epoch : Nat := 0
  /-- R220: the second read is in progress; and whether it still awaits its column command. -/
  retry : Bool := false
  retryDue : Bool := false
  /-- Time of the latest column command of the entry. -/
  colAt : Nat := 0
  /-- Write data that the entry of an LB merge or fill works on has arrived. -/
  filled : Bool := false
  /-- MODEL: order of entry into the table (R126). -/
  age : Nat := 0
  /-- R133: it holds a slot of the response queue for the data of its RD. -/
  slot : Bool := false
  deriving DecidableEq, Repr

/-- ZCI commands (R115, R277, R278). -/
inductive Zci where
  | act | pre | preab | refpb | refab | trf | mrw | mrr | tmp | pde | pdx | sre | srx | rd | rda | wr | wra
  deriving DecidableEq, Repr

/-- An issued command, with the timing values that bind the windows it opened (R121). -/
structure Issued where
  op : Zci
  at_ : Nat
  loc : Loc
  tim : Timing
  /-- Of an RDA or WRA: the ACT of its row, and the tRAS that binds it (R118, R121). -/
  actAt : Nat := 0
  actRas : Nat := 0
  /-- Of a refresh: the tick that it paid (R465). -/
  tick : Nat := 0
  /-- Of an MRW or MRR: address and value (R465). -/
  addr : BitVec 8 := 0
  data : BitVec 8 := 0
  /-- R275, R286: this channel's own PHY drove it; not so for a command of a joined pair's other PHY to its own dies. -/
  own : Bool := true
  deriving DecidableEq, Repr

/-- Row state and page policy of a bank (R144, R145). -/
structure BankSt where
  row : Option (BitVec 14) := none
  ladder : Nat := 3
  /-- Start of the page timer: the ACT or the latest column command. -/
  timerAt : Nat := 0
  expired : Bool := false
  lastAct : Nat := 0
  actSeen : Bool := false
  lastCol : Option Nat := none
  /-- R145: row closed by timeout or auto-precharge, when, the timeout that closed it, and whether an auto-precharge did. -/
  closedBy : Option (BitVec 14 × Nat × Nat × Bool) := none
  /-- R270: the next ACT has been delayed by pacing, and counted. -/
  paced : Bool := false
  deriving DecidableEq, Repr

/-- R134: a line-buffer slot. -/
structure LbSlot where
  line : Option Loc := none
  data : BitVec 1024 := 0
  valid : Bool := false
  dirty : Bool := false
  poison : Bool := false
  /-- Class of the last entry that dirtied it (R176); none when only its corrected fill did. -/
  cls : Option (BitVec 4) := none
  lastUse : Nat := 0
  /-- Its write-back has been asked for (R134), and its place in the age order of the table. -/
  wb : Bool := false
  wbAge : Nat := 0
  /-- When it was asked for (R132). -/
  wbAsk : Nat := 0
  /-- When its latest WR was issued, and until when its data are leaving (R130). -/
  wbAt : Option Nat := none
  wbEnd : Nat := 0
  deriving DecidableEq, Repr

/-- R133: a response at the channel port. -/
structure Resp where
  idx : EntryIx
  mod : Mod
  epoch : Nat
  port : BitVec 4
  tag : BitVec 10
  opc : BitVec 6
  status : BitVec 4
  poison : Bool
  dsz : BitVec 3
  data : BitVec 1024
  /-- For the latency mark (R183): class and time of entry. -/
  cls : BitVec 4
  at_ : Nat
  /-- R38: half of an RD128 that this port returns: false the leader's, true the follower's. -/
  part : Option Bool := none
  deriving DecidableEq, Repr

/-- R172: a gate list. -/
structure GateList where
  len : Nat := 1
  cycle : Nat := 1000
  phase : Nat := 0
  en : Bool := false
  dur : Vector (BitVec 20) 16 := Vector.replicate 16 0
  mask : Vector (BitVec 16) 16 := Vector.replicate 16 0xFFFF
  deriving DecidableEq, Repr

/-- Gates of a channel: guard, pending registers, list in force, committed copy, entry in force (R172 to R179). -/
structure Gates where
  guard : BitVec 10 := 0x03C
  /-- R174: a CC in which guard was written, and its value before. -/
  guardWas : Option (Nat × BitVec 10) := none
  pend : GateList := {}
  force : GateList := {}
  commit : Option GateList := none
  /-- R179: the CC of a commit that found no list enabled, and its time base. -/
  commitAt : Nat × Nat := (0, 0)
  /-- Entry in force, and whether a cycle of the list has started since the switch (R179). -/
  entry : Fin 16 := 0
  started : Bool := false
  /-- Time base at which the cycle in force started. -/
  cycleAt : Nat := 0
  deriving DecidableEq, Repr

/-- R231: remap entry states. -/
inductive RemapSt where
  | free | poisoned | live | filling
  deriving DecidableEq, Repr

structure Remap where
  st : RemapSt := .free
  loc : Loc := ⟨0, 0, 0, 0, 0, 0⟩
  pair : Bool := false
  data : BitVec 1024 := 0
  deriving DecidableEq, Repr

/-- R235, R237: the repair sequencer with its buffer. -/
structure Repair where
  hard : Bool
  loc : Loc
  /-- 0 wait for a debt of at most 4 (R258), 1 hold, 2 copy out, 3 precharge, 4 and 5 guard and mode, 6 ACT, 7 the
  sequence, 8 precharge, 9 mode off, 10 copy back, 11 precharge and release (R235, R237, R283). -/
  phase : Nat
  nextRd : Nat
  done : Nat
  startAt : Nat
  buf : List (BitVec 1024 × Bool)
  /-- R381: the sequencer has failed; how many lines are written back. -/
  failed : Bool := false
  lines : Nat := 16
  /-- The command that asked for it, while its answer is owed. -/
  by_ : Option (Mb × BitVec 2)
  deriving DecidableEq, Repr

/-- R261: a tracker entry that has been used. -/
structure TrkEnt where
  i : Nat
  row : BitVec 14
  v : BitVec 15
  sweep : Bool
  sweepAt : Nat
  perr : Bool
  deriving DecidableEq, Repr

/-- The tracker of a bank: S, entries in index order, and a drain in progress (R466). -/
structure Tracker where
  s : BitVec 15 := 0
  ents : List TrkEnt := []
  drain : Bool := false
  /-- TRFs issued in the drain since the last ACT (R466). -/
  drainTrf : Nat := 0
  lastSweepDl : Option Nat := none
  /-- MODEL: time base from which the next epoch boundary is looked for; log entry 2, DESIGN CHOICE. -/
  epochFrom : Nat := 0
  deriving DecidableEq, Repr

/-- Why a TRF is owed (R254, R262, R263, R466). -/
inductive TrfWhy where
  | trig | beforeAct | sweep | drain
  deriving DecidableEq, Repr

structure TrfReq where
  bank : BankIx
  row : BitVec 14
  why : TrfWhy
  at_ : Nat
  deriving DecidableEq, Repr

/-- A lane of a lane group (R285, R290). -/
structure Lane where
  samplerB : Bool := false
  rxTap : BitVec 6 := 0
  txTap : BitVec 6 := 0
  width : BitVec 6 := 0
  disagree : Nat := 0
  /-- 0 in service, 1 spare idle, 2 failed or replaced, 3 spare in service (R305). -/
  role : BitVec 2 := 0
  trained : Bool := false
  /-- R290: edges of the last agreed measurement on sampler A, on sampler B and of the transmit (or loopback) eye. -/
  eyeA : Eye := ⟨0, 0⟩
  eyeB : Eye := ⟨0, 0⟩
  eyeT : Eye := ⟨0, 0⟩
  /-- R303: consecutive pauses with a width of at least boot_min. -/
  goodPauses : Nat := 0
  /-- R307: selection written by firmware, applied in the next hold: sampler, rx tap, tx tap. -/
  selSampler : Option Bool := none
  selRx : Option (BitVec 6) := none
  selTx : Option (BitVec 6) := none
  deriving DecidableEq, Repr

/-- A data spare (R286, R301): in service, lane carried, failed. -/
structure Spare where
  en : Bool := false
  lane : BitVec 6 := 0
  failed : Bool := false
  deriving DecidableEq, Repr

/-- Phases of a recalibration pause (R296). -/
inductive PausePh where
  | none | closing | measure | apply
  deriving DecidableEq, Repr

/-- One pseudo-channel's lane group: lanes, spares, marks, monitor (R218, R300) and pause (R296). -/
structure LaneGroup where
  lanes : Vector Lane 38 := Vector.replicate 38 {}
  spares : Vector Spare 2 := Vector.replicate 2 {}
  marks : BitVec 36 := 0
  /-- Corrected symbols per logical lane in the window, with the bank indices they came from. -/
  mon : List (Nat × Nat × BitVec 16) := []
  identified : List Nat := []
  refusedMark : List Nat := []
  pause : PausePh := .none
  /-- MODEL: time base from which the next scheduled slot is looked for; log entry 2, DESIGN CHOICE. -/
  slotFrom : Nat := 0
  /-- R306: settings measured in the pause, which come into force at its end. -/
  newLanes : Option (Vector Lane 38) := none
  /-- R301: lanes all of whose eyes agreed in the pause. -/
  fresh : BitVec 38 := 0
  /-- R295: the pause in progress is a channel pause. -/
  chPause : Bool := false
  /-- R301: spare selected for a lane, to be switched in the next pause: spare, lane. -/
  sel : Option (Fin 2 × Fin 36) := none
  /-- R302: logical lane of a requalification sweep, with the number of lines read. -/
  requal : Option (Fin 36) := none
  requalNext : Nat := 0
  /-- R302: lines of the sweep whose write-back found no room in the table, to be read again. -/
  requalWait : List Loc := []
  /-- R285: beat alignment, in whole UIs of read latency, set at boot training. -/
  align : BitVec 6 := 0
  deriving DecidableEq, Repr

/-- The mode registers of one core die for one channel (R281, R282, R283, R284). -/
structure Die where
  /-- Read-only registers, as the identity read found them; the writable ones as written, 0 where nothing was. -/
  ro : List (Nat × BitVec 8) := []
  mr : List (Nat × BitVec 8) := []
  /-- 0x7C: parity error latched, errors counted. -/
  parity : BitVec 8 := 0
  /-- R282: the write buffer of each pseudo-channel, with its stored-poison mark; none where nothing has been written. -/
  buf : Vector (Option (Line × Bool)) 2 := Vector.replicate 2 none
  /-- R282: the CC in which command loopback was entered. -/
  loopAt : Nat := 0
  deriving DecidableEq, Repr

/-- Host-owned configuration of a channel engine (R152, R186, R246), which retention keeps (R41). -/
structure ChanCfg where
  ageCap : BitVec 7 := 0x40
  hintEn : Bool := true
  pageMode : BitVec 2 := 0
  tinit : BitVec 4 := 3
  tmax : BitVec 4 := 7
  tmin : BitVec 4 := 0
  wrAge : BitVec 4 := 5
  drainMax : BitVec 8 := 0x40
  lo : BitVec 8 := 0x10
  hi : BitVec 8 := 0x30
  rsvMin : Vector (BitVec 9) 16 := Vector.replicate 16 0
  rsvMax : Vector (BitVec 9) 16 := Vector.replicate 16 0x100
  weight : Vector (BitVec 8) 16 := Vector.replicate 16 0x10
  maintCls : BitVec 4 := 0xF
  yellowCost : BitVec 2 := 1
  hold : Bool := false
  ceWin : BitVec 4 := 0xA
  ceThresh : BitVec 16 := 0x40
  refAllBank : Bool := false
  rateMin : BitVec 2 := 0
  thresh : BitVec 12 := 0x800
  pace : BitVec 8 := 0
  recalEn : Bool := true
  bootMin : Nat := 20
  warn : Nat := 14
  fail : Nat := 10
  monThresh : Nat := 64
  deriving DecidableEq, Repr

/-- Counters of a channel engine and TSV PHY. -/
structure ChanCnt where
  act : BitVec 32 := 0
  col : BitVec 32 := 0
  fwd : BitVec 32 := 0
  amo : BitVec 32 := 0
  confl : BitVec 32 := 0
  stcPass : BitVec 32 := 0
  stcFail : BitVec 32 := 0
  rsvEvict : BitVec 32 := 0
  ce : BitVec 32 := 0
  ceErase : BitVec 32 := 0
  ue : BitVec 32 := 0
  retryOk : BitVec 32 := 0
  dscrub : BitVec 32 := 0
  dscrubSkip : BitVec 32 := 0
  poisonRd : BitVec 32 := 0
  poisonDrop : BitVec 32 := 0
  ref : BitVec 32 := 0
  refDl : BitVec 32 := 0
  trfTrig : BitVec 32 := 0
  trfSweep : BitVec 32 := 0
  paceCnt : BitVec 32 := 0
  trkPerr : BitVec 32 := 0
  pause : BitVec 32 := 0
  disagree : BitVec 32 := 0
  caerr : BitVec 32 := 0
  margin : BitVec 32 := 0
  deriving DecidableEq, Repr

/-- Refresh engine (R248 to R254) and trackers (R261). -/
structure Refresh where
  /-- 1, 2 or 4 per SID; 4 until the first valid read (CHn_REF_STATUS). -/
  mTemp : Vector Nat 4 := Vector.replicate 4 4
  fallCnt : Vector Nat 4 := Vector.replicate 4 0
  /-- R260: no TMP has been decoded since the SRX, so no tick counts yet. -/
  waitTmp : Vector Bool 4 := Vector.replicate 4 false
  /-- R249, R260: the next valid reading sets m_temp directly. -/
  direct : Vector Bool 4 := Vector.replicate 4 true
  temp : Vector (BitVec 8) 4 := Vector.replicate 4 0x80
  tmpFail : Vector Bool 4 := Vector.replicate 4 false
  /-- Multiplier that each bank's ticks use (R251). -/
  mult : Vector Nat 128 := Vector.replicate 128 4
  debt : Vector Int 128 := Vector.replicate 128 0
  /-- MODEL: time base from which the next tick of a bank, and the next TMP of a SID, is looked for; log entry 2, DESIGN CHOICE. -/
  tickFrom : Vector Nat 128 := Vector.replicate 128 0
  tmpFrom : Vector Nat 4 := Vector.replicate 4 0
  /-- Ticks owed and not yet paid, oldest first (R253, R254). -/
  owed : Vector (List Nat) 128 := Vector.replicate 128 []
  trk : Vector Tracker 128 := Vector.replicate 128 {}
  trf : List TrfReq := []
  tmpDue : List SidIx := []
  /-- TMP commands issued and not yet answered. -/
  tmpSent : List SidIx := []
  /-- R259: pseudo-channels in a Pupa burst. -/
  burst : Vector Bool 2 := Vector.replicate 2 false
  deriving DecidableEq, Repr

/-- Recovery activities of a channel engine (R465 to R470). -/
inductive Recov where
  | none
  /-- CAERR_n low; time of the fall. -/
  | caerr (fallAt : Nat)
  /-- CAERR_n high again; time of the fall and of the rise: waiting for step 1. -/
  | caerrWait (fallAt riseAt : Nat)
  | engine (startAt : Nat)
  deriving DecidableEq, Repr

/-- R154: a mode-register command that firmware has asked for: write of a value, or read on the lanes of a pseudo-channel. -/
structure MrAsk where
  sid : SidIx
  addr : BitVec 8
  act : BitVec 8 ⊕ Pc
  deriving DecidableEq, Repr

/-- Power of a channel's core dies (R259, R284, R332). -/
inductive DiePwr where
  | active | powerDown | selfRefresh
  deriving DecidableEq, Repr

/-- R183: a class mark, with the latest samples and their times (R185). -/
structure Hwm where
  depth : BitVec 9 := 0
  lat : BitVec 23 := 0
  depthIn : Option (Nat × BitVec 9) := none
  latIn : Option (Nat × BitVec 23) := none
  deriving DecidableEq, Repr

/-- R458: debug snapshots. -/
structure DbgSnap where
  ttIdx : BitVec 8 := 0
  ttValid : Bool := false
  tt : BitVec 112 := 0
  trkIdx : BitVec 14 := 0
  trkValid : Bool := false
  trkEnt : BitVec 32 := 0
  trkS : BitVec 15 := 0
  deriving DecidableEq, Repr

/-- R143: HINT bookkeeping is in the entry; R206, R224, R246: the rest of a channel's status. -/
structure ChanSt where
  /-- R30: next module of the request round robin; reset value log entry 6, DESIGN CHOICE. -/
  rr : Fin 20 := 0
  tt : List Entry := []
  /-- MODEL: next place in the age order (R126). -/
  ageCtr : Nat := 0
  /-- R29: CC of the latest request accepted at the channel port. -/
  lastGrant : Option Nat := none
  /-- R473: indexes of uncorrectable entries on their way to the modules. -/
  notices : List (Mod × EntryIx) := []
  wmode : Vector Bool 2 := Vector.replicate 2 false
  /-- Writes issued since a pseudo-channel entered write mode (R132). -/
  wcount : Vector Nat 2 := Vector.replicate 2 0
  /-- CC in which a pseudo-channel last changed mode (R132). -/
  modeAt : Vector (Option Nat) 2 := Vector.replicate 2 none
  lb : Vector LbSlot 16 := Vector.replicate 16 {}
  /-- R135: CC from which the atomic unit takes a further operation. -/
  unitFree : Nat := 0
  respq : List Resp := []
  /-- R38, R147: responses that wait at the follower's port of a joined pair. -/
  respqF : List Resp := []
  banks : Vector BankSt 128 := Vector.replicate 128 {}
  hist : List Issued := []
  cap : BitVec 7 := 0x40
  /-- R51: the broadcast cap applied, the cap that has arrived, and the time base at its arrival. -/
  capBase : BitVec 7 := 0x40
  capIn : BitVec 7 := 0x40
  capAt : Nat := 0
  /-- R51: a cap on the broadcast bus, written at this time, not yet arrived. -/
  capBus : Option (BitVec 7) := none
  colUsed : Nat := 0
  ptr : BitVec 4 := 3
  deficit : Vector Int 16 := Vector.replicate 16 0
  hwm : Vector Hwm 16 := Vector.replicate 16 {}
  /-- R206: the reservations that the decided steps of the age order leave, and the steps after them. -/
  rsv : List Rsv := []
  rsvEvs : List RsvEv := []
  ueLoc : Word := 0
  ceWindow : Option Window := none
  /-- MODEL: CC of the latest scheduling decision. -/
  lastCc : Option Nat := none
  /-- R467: when the latest command was issued; since when the scheduling decisions have found a ready entry, and a refresh
  or TRF at its deadline. -/
  lastCmd : Nat := 0
  readyAt : Option Nat := none
  dueAt : Option Nat := none
  /-- R115: the CC of the latest command of the row and of the column bus. -/
  rowAt : Option Nat := none
  colAt : Option Nat := none
  /-- R154: MRWs asked for through CHn_MR_ACCESS and not yet issued: SID, address, value. -/
  mrq : List MrAsk := []
  /-- R154, R280: value that the latest MRR of CHn_MR_ACCESS returned; none where the read failed, has not returned, or none
  was made. -/
  mrVal : Option (BitVec 8) := none
  /-- R280: MRRs issued and not yet answered, oldest first: SID and time. -/
  mrSent : List (SidIx × Nat) := []
  /-- R300: when the lane monitor's window started. -/
  monAt : Nat := 0
  /-- R310: when a host entry last became FREE. -/
  freeAt : Nat := 0
  recov : Recov := .none
  lastRecov : Option Nat := none
  /-- R470: when the last PREab of an engine recovery's step 3 goes out. -/
  step3 : Option Nat := none
  /-- R465: writes whose entries have left COLWR, with the end of their burst: their data slots are kept for 16 ns more. -/
  kept : List (Entry × Nat) := []
  uncertain : List Issued := []
  pwr : DiePwr := .active
  baseTemp : BitVec 8 := 0x80
  /-- R331: the hardware cap is applied; since when every reading is at or below 102. -/
  crit : Bool := false
  critCoolAt : Option Nat := none
  warnUp : Bool := false
  tripHold : Bool := false
  tripAt : Option Nat := none
  deriving DecidableEq, Repr

/-- One channel engine with its TSV PHY. -/
structure Chan where
  cfg : ChanCfg := {}
  /-- R127, R153: a CC in which cfg was written, and cfg as that CC found it. -/
  cfgWas : Option (Nat × ChanCfg) := none
  st : ChanSt := {}
  cnt : ChanCnt := {}
  gate : Gates := {}
  rf : Refresh := {}
  tim : Timing := {}
  /-- R174: a CC in which a timing value was written, and the values before. -/
  timWas : Option (Nat × Timing) := none
  remap : Vector Remap 16 := Vector.replicate 16 {}
  repair : Option Repair := none
  /-- R237, R247: the latest repair to end: hard, place, whether firmware has ended it (R55), and whether it failed (R381). -/
  lastRepair : Option (Bool × Loc × Bool) := none
  lastFailed : Bool := false
  /-- R50, R122: an initialisation in progress: the next codeword, in the order of the lines. -/
  init : Option Nat := none
  pc : Vector LaneGroup 2 := Vector.replicate 2 {}
  cmdLane : Vector Lane 20 := Vector.replicate 20 {}
  csp : Vector Spare 2 := Vector.replicate 2 {}
  /-- 0 untrained, 1 in progress, 2 passed, 3 failed (TSVn_STATUS.train). -/
  train : BitVec 2 := 0
  laneIdx : BitVec 8 := 0
  dies : Vector Die 4 := Vector.replicate 4 {}
  /-- R272: ZRST_n as the PHY drives it. -/
  zrstN : Bool := false
  /-- R304, R307: command spare selected for a lane: spare, lane. -/
  selCmd : Option (Fin 2 × Fin 18) := none
  dbg : DbgSnap := {}
  /-- A channel reset is in progress (R474), and the commands that it answers (R26, R393). -/
  inReset : Bool := false
  resetBy : List (Mb × BitVec 2) := []
  /-- R226: the channel's share of the pass runs; lines visited. -/
  share : Bool := false
  visited : List Loc := []
  lastPace : Nat := 0
  /-- R304: CAERR assertions in the last ms, and the command-lane flow running. -/
  caerrTimes : List Nat := []
  cmdFlow : Bool := false
  /-- R304: the channel pause in progress is the one that the flow asked for. -/
  cmdNow : Bool := false
  newCmd : Option (Vector Lane 20) := none
  deriving DecidableEq, Repr

/-! ## Address map -/

structure Map where
  gran : BitVec 2 := 1
  xorCh : Bool := true
  xorBank : Bool := true
  frozen : Bool := false
  mapped : BitVec 64 := 0
  hole : BitVec 64 := 0
  nsid : Nat := 0
  density : BitVec 2 := 0
  joined : BitVec 32 := 0
  /-- Pairs in transition (R109), the mode they leave for, and whether their slots are closed. -/
  trans : BitVec 32 := 0
  probe : BitVec 40 := 0
  /-- R110, R384, R288: channels lost, disabled until cold reset, failed in training, failed in BIST. -/
  lost : BitVec 64 := 0
  volDis : BitVec 64 := 0
  trainFail : BitVec 64 := 0
  bistFail : BitVec 64 := 0
  deriving DecidableEq, Repr

/-! ## Management complex -/

/-- Where an access to the register fabric came from (R395), so that it can be answered later. -/
inductive Origin where
  /-- A CFG request of module m, by its order number. -/
  | inband (m : Mod) (seq : Nat)
  | sideband (t : Fin 4)
  | debug (j : Fin 4)
  | direct
  deriving DecidableEq, Repr

/-- An access to the control space. -/
structure Access where
  who : Ident
  org : Origin
  off : BitVec 24
  wr : Option Word
  deriving DecidableEq, Repr

/-- The answer of the fabric to an access. -/
inductive AccRes where
  | ok (v : Word)
  | err (code : BitVec 4)
  | wait
  deriving DecidableEq, Repr

/-- R365: the exclusive resources that a command may hold; the scrub engine's holder is in Scrub. -/
inductive CmdRes where
  | none
  | repair (n : Ch)
  | pair (c : PairIx)
  | fuse
  | key
  deriving DecidableEq, Repr

/-- A command that firmware has taken (R366); `running` once it has started and only its end is awaited. -/
structure FwCmd where
  tag : BitVec 2
  word : Word
  running : Bool
  /-- R365: its place in the order in which firmware took commands. -/
  seq : Nat := 0
  /-- R365: what it holds from its take to its answer, and whether another command held that already. -/
  res : CmdRes := .none
  busy : Bool := false
  /-- R237, R381: at its take no host entry was left in the channel that it names, whose hold was set. -/
  idle : Bool := false
  deriving DecidableEq, Repr

/-- An answer or notice waiting inside firmware (R351). -/
structure Answer where
  opcode : BitVec 7
  tag : BitVec 2
  status : BitVec 4
  result : BitVec 8
  deriving DecidableEq, Repr

/-- One mailbox channel (R345 to R355). -/
structure Mailbox where
  inw : Word := 0
  inFull : Bool := false
  out : Word := 0
  outFull : Bool := false
  winFw : Bool := false
  holdAt : Nat := 0
  owner : Option Ident := none
  inOvf : BitVec 8 := 0
  win : List Host.Cell := []
  waiting : List Access := []
  cmds : List FwCmd := []
  answers : List Answer := []
  /-- Tags whose answer is posted and not taken (R347). -/
  posted : List (BitVec 2) := []
  /-- MB_WAKE_STATUS. -/
  wake : Bool := false
  deriving DecidableEq, Repr

/-- R414, R416, R417. -/
structure EvSrc where
  occ : BitVec 16 := 0
  ack : BitVec 16 := 0
  msgEn : Bool := false
  ibiEn : Bool := false
  holdoff : BitVec 3 := 0
  ibiTgt : Fin 4 := 0
  module : Fin 20 := 0
  port : BitVec 4 := 0
  /-- Time and occ of the last message decided; of the last interrupt decided. -/
  lastMsg : Option (Nat × BitVec 16) := none
  lastIbi : Option (Nat × BitVec 16) := none
  /-- R419: when the latest occurrence reached the controller. -/
  occAt : Nat := 0
  deriving DecidableEq, Repr

/-- An occurrence on its way to the event controller (R415), with its cause and details (R421). -/
structure Occ where
  e : Ev
  cause : BitVec 8
  detA : BitVec 24
  detB : Word
  tb : BitVec 64
  deriving DecidableEq, Repr

/-- R396, R419: an I3C virtual target. -/
structure I3cTgt where
  last : BitVec 8 := 0
  /-- R340, R411: the provisional identification of the target; R319: its dynamic address, once one is granted. -/
  provId : BitVec 48 := 0
  dynAddr : Option (BitVec 7) := none
  /-- Holds a dynamic address with interrupts enabled. -/
  ibiOn : Bool := false
  /-- Interrupts waiting, oldest first; the count is read when it is raised. -/
  ibiq : List Ev := []
  /-- The interrupt raised on the bus: its mandatory byte and payload (R419). -/
  ibi : Option (BitVec 40) := none
  /-- A read that has not completed (NACKed), the offset and bytes of one that has completed since its NACK, and the bytes
  of the last read answered. -/
  busy : Bool := false
  ready : Option (BitVec 24 × BitVec 40) := none
  rdata : BitVec 40 := 0
  /-- R396: the latest transfer was answered with NACK. -/
  nack : Bool := false
  deriving DecidableEq, Repr

/-- R420: a packet waiting for the log writer. -/
structure LogPkt where
  type : BitVec 6
  words : List Word
  deriving DecidableEq, Repr

/-- R420 to R427: the open packet. -/
structure OpenPkt where
  type : BitVec 6
  mark : Nat
  words : List Word
  trunc : Bool
  openedAt : Nat
  /-- R427: abandoned by a flush; its words are discarded up to its close. -/
  abandoned : Bool
  attention : Bool
  code : BitVec 16
  deriving DecidableEq, Repr

/-- The Silk log (R420 to R430). -/
structure SilkLog where
  /-- Words of closed packets in the filling bank, and unread words of the draining bank, in order. -/
  fill : List Word := []
  drain : List Word := []
  openPkt : Option OpenPkt := none
  hq : List LogPkt := []
  /-- A packet that waits for room, with its declared length (R425). -/
  waiting : Option Nat := none
  /-- Drops of the filling bank since its last marker (R424). -/
  drops : Nat := 0
  dropped : BitVec 16 := 0
  truncated : BitVec 16 := 0
  seq : BitVec 16 := 0
  gap : Bool := false
  dropRun : Bool := false
  firstClosed : Option Nat := none
  /-- R429: since when MGMT has been off, so that the log's timers stand still. -/
  stopAt : Option Nat := none
  swapDue : Bool := false
  pops : List Access := []
  flushes : BitVec 4 := 0
  levelThresh : BitVec 12 := 0x400
  /-- R420: EV0 to EV295 and EV344 to EV359. -/
  mask : BitVec 360 := BitVec.ofNat 360 (2 ^ 296 - 1 + (2 ^ 360 - 2 ^ 344))
  verbosity : BitVec 2 := 0
  deriving DecidableEq, Repr

/-- R484: what the fuse controller asks of the macro. -/
inductive FuseWant where
  | boot | trim | read | readMargin | prog
  deriving DecidableEq, Repr

/-- R385, R387, R388, R447: the fuse command in progress: for a mailbox and tag, or for the test port. `stage` counts the
operations on the word in hand; `progs` are the program operations that remain for it. -/
structure FuseCmd where
  by_ : Option (Mb × BitVec 2)
  op : BitVec 7
  region : Nat
  off : Nat
  count : Nat
  done : Nat
  base : Nat
  margin : Bool
  vals : List Word
  stage : Nat
  progs : List (Nat × BitVec 39)
  deriving DecidableEq, Repr

/-- R239: what firmware programs by itself: a record to append, or the records to void. -/
inductive RecJob where
  | add (w0 w1 : Word)
  | void (w0 w1 : Word)
  deriving DecidableEq, Repr

/-- R442 to R451, R484: fuses, fuse port and shadows. -/
structure Fuses where
  /-- Content of the OTP macro as last read or programmed: words that are not blank (kept through every reset). -/
  words : List (Nat × BitVec 39) := []
  req : Bool := false
  /-- An operation is not allowed until ack reads low (R484). -/
  ackHigh : Bool := false
  addr : Nat := 0
  want : FuseWant := .boot
  wdata : BitVec 39 := 0
  reqAt : Nat := 0
  cmd : Option FuseCmd := none
  /-- First (normal) read of the word being read at boot (R445); none inside where no ack came. -/
  first : Option (Option (BitVec 39)) := none
  /-- R445: usable data, MARGINAL words and unusable words found at the latest boot. -/
  marginal : List Nat := []
  unusable : List Nat := []
  crcBad : BitVec 8 := 0
  alarm : Bool := false
  locked : BitVec 8 := 0
  factory : Bool := false
  /-- R446: region, offset, value. -/
  shadows : List (Nat × Nat × Word) := []
  /-- R445, R446: the trims in use, words 0 to 62 of region 0; none is the hardware default. -/
  trims : Vector (Option Word) 63 := Vector.replicate 63 none
  /-- R442, R445: the SRAM repairs applied, as words of region 2. -/
  repairs : List Word := []
  /-- R445: the die temperature recorded with the latest boot reading. -/
  bootTemp : BitVec 8 := 0
  /-- Records reserved and not yet programmed (R366), and the program operations left of the first. -/
  jobs : List RecJob := []
  jobOps : List (Nat × BitVec 39) := []
  deriving DecidableEq, Repr

/-- R226 to R230: the scrub pass. -/
structure Scrub where
  running : Bool := false
  /-- R365: the engine is held until SCRUB_DONE is taken. -/
  held : Bool := false
  mb : Option Mb := none
  ident : Ident := 0
  base : Nat := 0
  mode : BitVec 2 := 0
  start : Nat := 0
  len : Nat := 0
  pace : Nat := 0
  pattern : BitVec 64 := 0
  clipped : Bool := false
  aborted : Bool := false
  part : Bool := false
  twinSeen : Bool := false
  erasureOnly : Nat := 0
  scanned : Nat := 0
  skipped : Nat := 0
  correctable : Nat := 0
  uncorrectable : Nat := 0
  firstUe : Option Nat := none
  lastUe : Option Nat := none
  hist72 : List (Nat × Nat) := []
  hist144 : List (Nat × Nat) := []
  startAt : Nat := 0
  deriving DecidableEq, Repr

/-- R390, R391, R438: a staged or retained image header. -/
structure ImgHdr where
  len : Nat := 0
  slot : BitVec 2 := 0
  secVer : BitVec 16 := 0
  digest : BitVec 384 := 0
  merKey : BitVec 768 := 0
  merSig : BitVec 768 := 0
  ownKey : BitVec 768 := 0
  ownSig : BitVec 768 := 0
  deriving DecidableEq, Repr

/-- GLB_FW_STATUS.state (R410). -/
inductive FwState where
  | rom | loader | ready | restarting
  deriving DecidableEq, Repr

/-- R334: state of the thermal model, in degrees, exact; and R336. -/
structure Thermal where
  cap : BitVec 7 := 0x40
  zone : BitVec 3 := 0
  tHot : BitVec 8 := 0x80
  tPred : BitVec 8 := 0x80
  floorBind : Bool := false
  warn : BitVec 8 := 90
  throttle : BitVec 8 := 95
  critCap : BitVec 6 := 16
  floor : BitVec 7 := 0
  bMax : BitVec 16 := 2000
  budget : Rat := 2000
  /-- Values set by Exaux that come into force at the next model step (R374). -/
  pendFloor : Option (BitVec 7 × BitVec 16) := none
  pendThr : Option (BitVec 8 × BitVec 8) := none
  td : Rat := 25
  ts : Rat := 25
  tamb : Rat := 25
  cLoop : Nat := 64
  lastAct : Nat := 0
  lastCol : Nat := 0
  coolSince : Option Nat := none
  /-- R335: since when the prediction has been at least 3 below the boundary of 85, and of 95. -/
  rateCool : Option Nat := none
  rateCool95 : Option Nat := none
  /-- R334, R339: model parameters written by firmware (tau_d, tau_s, theta_ds, theta_sa, P_base, e_act, e_col); none is the
  one fitted at bring-up. -/
  model : Vector (Option Nat) 7 := Vector.replicate 7 none
  deriving DecidableEq, Repr

/-- R310, R373: an idle policy. -/
structure Idle where
  target : BitVec 2
  ms : Nat
  deriving DecidableEq, Repr

/-- LANE_SPARE in progress (R382): lane 36 or 37 is a command bus; `answered` once it is owed no answer (R394), and no
channel where the one that asked has been bound anew (R343). -/
structure LaneJob where
  n : Ch
  lane : Nat
  pc : Option Pc
  mb : Option Mb
  tag : BitVec 2
  answered : Bool
  deriving DecidableEq, Repr

/-- R297: a pause that waits: of one pseudo-channel, or of a channel; scheduled ones go ahead of urgent ones. -/
structure PauseReq where
  n : Ch
  pc : Option Pc
  sched : Bool
  deriving DecidableEq, Repr

/-- TWINWING in progress (R383), with the command while its answer is owed. -/
structure TwinJob where
  c : PairIx
  entry : Bool
  by_ : Option (Mb × BitVec 2)
  deriving DecidableEq, Repr

/-- REMAP_INSTALL or REMAP_RELEASE in progress (R379, R380). -/
structure RemapJob where
  n : Ch
  i : Fin 16
  /-- The line that it installs or releases. -/
  loc : Loc
  /-- The command whose answer is owed; none after a change of binding (R343). -/
  by_ : Option (Mb × BitVec 2)
  release : Bool
  /-- Its access has not entered the table yet, for want of an entry (R122). -/
  waits : Bool
  deriving DecidableEq, Repr

/-- Priri and its firmware (chapters 10 to 12, 15). -/
structure Fw where
  st : FwState := .rom
  restarts : BitVec 16 := 0
  /-- Firmware has been started and has not reported READY (R440). -/
  started : Bool := false
  /-- In its wait (R310). -/
  waiting : Bool := false
  restartWhy : BitVec 24 := 0
  hostFloor : Vector (BitVec 2) 64 := Vector.replicate 64 0
  modelFloor : Vector (BitVec 2) 64 := Vector.replicate 64 0
  idle : Option Idle := none
  staged : Option ImgHdr := none
  running : ImgHdr := {}
  versionFloor : BitVec 16 := 0
  protLen : Nat := 0
  protDigest : BitVec 384 := 0
  /-- R391: FW_COMMIT's channel and the header that the delivery must match. -/
  commitOn : Option Mb := none
  commitHdr : Option ImgHdr := none
  sram : List Host.Cell := []
  urgent : List PauseReq := []
  /-- R391, R393: answers OK after which Priri (false) or the block (true) is reset; when the first of the latter was
  posted. -/
  resetAsks : List (Mb × BitVec 2 × Bool) := []
  resetAt : Option Nat := none
  /-- Engine recoveries whose firmware record is not yet written (R468). -/
  recNotes : List Ch := []
  laneJobs : List LaneJob := []
  twinJobs : List TwinJob := []
  remapJobs : List RemapJob := []
  /-- MODEL: place of the next command that firmware takes (R365). -/
  takeSeq : Nat := 0
  /-- R22, R411: PRIRI_WDT: the watchdog's period in ns, 0 while it is off, and when it was last served. -/
  wdtPeriod : Nat := 0
  wdtServed : Nat := 0
  deriving DecidableEq, Repr

/-! ## Power -/

/-- AON_PWR_STATUS.state (R338). -/
inductive PwrState where
  | imago | toPupa | pupa | toChrysalis | chrysalis | chrysMgmt | waking
  deriving DecidableEq, Repr

/-- Progress of an entry: deferral, then steps E1 to E6 (R310 to R313). -/
inductive EntryPh where
  | none | defer | step (k : Nat)
  deriving DecidableEq, Repr

structure EyeEnt where
  lo : Word := 0x00008080
  hi : Word := 0
  deriving DecidableEq, Repr

/-- The Eyespot sampler (R323 to R328). -/
structure Eye3 where
  period : Nat := 8
  wakeHi : BitVec 8 := 90
  visits : BitVec 16 := 0
  widx : BitVec 4 := 0
  ring : Vector EyeEnt 16 := Vector.replicate 16 {}
  inVisit : Bool := false
  lastStart : Nat := 0
  enteredAt : Nat := 0
  /-- Rate written at entry, rate in force: 1, 2 or 4. -/
  rateEntry : Nat := 1
  rate : Nat := 1
  fall : Nat := 0
  failRun : Nat := 0
  coolRun : Nat := 0
  deriving DecidableEq, Repr

/-- The always-on domain and the trip state (R308 to R333). -/
structure Power where
  state : PwrState := .imago
  /-- State to return to when an entry is aborted. -/
  from_ : PwrState := .imago
  target : BitVec 2 := 0
  ph : EntryPh := .none
  bySr : Bool := false
  srEntered : Bool := false
  deferAt : Nat := 0
  quiet : Nat := 10000
  deferMax : Nat := 10000000
  lastWake : BitVec 4 := 0
  wakeHlm : BitVec 5 := 0x1F
  lastAbort : BitVec 4 := 0
  entries : BitVec 16 := 0
  aborts : BitVec 16 := 0
  patEn : BitVec 20 := 0xFFFFF
  eye : Eye3 := {}
  /-- R314: a wake waits for the end of the entry: source and module. -/
  wakePend : Option (BitVec 4 × BitVec 5) := none
  /-- R320: when the latest power-up began, from which the four waves of quad switches count. -/
  upAt : Nat := 0
  /-- R321: when each domain last began to power down. -/
  downAt : Vector Nat 39 := Vector.replicate 39 0
  /-- R339: domain switches that firmware holds closed (AON_SEQ_CTRL). -/
  seqOn : BitVec 39 := 0
  /-- Power-up step reached by each domain, 0 off to 4 on: AON, MGMT, XBAR, HLM0 to 19, Q0 to 15 (R320). -/
  dom : Vector Nat 39 := Vector.replicate 39 0
  /-- gh_thermtrip_o; trip began in Chrysalis or on entry to it (R333); run of good checks. -/
  trip : Bool := false
  tripChrys : Bool := false
  tripRun : Nat := 0
  lastCheck : Nat := 0
  tripPend : Bool := false
  /-- R350, R319: management wake raised. -/
  mgmtWake : Bool := false
  /-- R434: the channels and SIDs whose dies a trip keeps checking through a warm boot. -/
  keptCh : BitVec 64 := 0
  keptSid : Nat := 0
  /-- R48: loss sequence in progress and its cause (0 edges, 1 lock). -/
  lossSeq : Option (BitVec 1) := none
  refLosses : BitVec 8 := 0
  lossDisc : BitVec 32 := 0
  /-- R49: a loss has happened, and nothing resumes before a warm or cold reset. -/
  lossHold : Bool := false
  /-- R310: when a request was last accepted or answered, or other work last ended. -/
  stirAt : Nat := 0
  deriving DecidableEq, Repr

/-! ## Boot and test -/

inductive BootPh where
  | off
  | cold (b : Nat)
  | warm (w : Nat)
  | up
  deriving DecidableEq, Repr

/-- Boot, BIST, stagger, delivery and test port (chapter 15). -/
structure Boot where
  ph : BootPh := .off
  pwrgood : Bool := false
  rstN : Bool := true
  /-- W1 has ended (R434). -/
  w1Done : Bool := false
  last : BitVec 3 := 0
  warmCnt : BitVec 16 := 0
  group : Nat := 0
  groupRun : Bool := false
  stagReq : Bool := false
  stagGnt : Bool := false
  /-- When the request was raised (R454: 1 s). -/
  stagAt : Nat := 0
  bistCh : BitVec 64 := 0
  /-- R452: lanes that failed the continuity test of B7: channel, pseudo-channel (none for the command lanes), physical lane. -/
  opens : List (Ch × Option Pc × Nat) := []
  bistMod : BitVec 20 := 0
  /-- [0] Priri SRAM passed, [1] the other management SRAMs (R392). -/
  bistMgmt : BitVec 2 := 0
  bistValid : Bool := false
  groupsRun : BitVec 4 := 0
  /-- R287: training group in hand at B11. -/
  trainGroup : Nat := 0
  /-- R457: the mask of the launched boot that runs, and one accepted for the next release of gh_rst_n_i. -/
  launch : Option (BitVec 88) := none
  armed : Option (BitVec 88) := none
  launchRefused : Bool := false
  /-- R408, R457: gh_rst_n_i has risen after an accepted launch, and a posted write is still pending. -/
  launchDue : Bool := false
  /-- Staging (R436 to R439): open, deliverer, stream, last done word, bytes accepted, verification running. -/
  stageOpen : Bool := false
  deliverer : Option Ident := none
  stream : List Byte := []
  done : Word := 0
  acceptedAt : Nat := 0
  verifying : Bool := false
  /-- W3/B5 reading position and the records of the pass. -/
  readAt : Nat := 0
  mgmtOk : Bool := true
  /-- Wrapper instruction (R456) and the 64-bit results of the GH_DBG_REG paths. -/
  wir : BitVec 6 := 0
  dbgBusy : Vector Bool 4 := Vector.replicate 4 false
  dbgRes : Vector (BitVec 64) 4 := Vector.replicate 4 0
  dr : BitVec 96 := 0
  codec : BitVec 8 := 0
  closeRes : Bool := false
  deriving DecidableEq, Repr

/-- A posted write pending in a slow domain (R408). -/
structure Posted where
  pend : Option (BitVec 24 × Word) := none
  at_ : Nat := 0
  disc : BitVec 16 := 0
  deriving DecidableEq, Repr

/-- Management complex: fabric, mailboxes, semaphores, events, log, fuses, scrub engine. -/
structure Mgmt where
  fw : Fw := {}
  mb : Vector Mailbox 24 := Vector.ofFn fun i =>
    if i.val < 16 then {} else if i.val < 20 then { owner := some (BitVec.ofNat 11 (0x200 + i.val)) }
    else { owner := some (BitVec.ofNat 11 (0x400 + i.val)) }
  sem : Vector (Option Ident) 32 := Vector.replicate 32 none
  ev : Vector EvSrc 360 := Vector.replicate 360 {}
  occq : List Occ := []
  evLost : BitVec 16 := 0
  evLostLast : BitVec 9 := 0
  log : SilkLog := {}
  i3c : Vector I3cTgt 4 := Vector.replicate 4 {}
  /-- R319, R411: the static address of the target. -/
  i3cStatic : BitVec 7 := 0
  /-- R400, R407: the writes performed over the paths in an MC cycle: its number, the register, the writer's place in the order and
  the bits that the write gave a value. -/
  cycleWr : List (Nat × Nat × Nat × Word) := []
  /-- MODEL: R400: the accesses of the latest command that brought several of one MC cycle, in the order of their performance, with
  their answers. -/
  tied : List (TiedAcc × AccRes) := []
  fuse : Fuses := {}
  scrub : Scrub := {}
  therm : Thermal := {}
  postAon : Posted := {}
  postTsv : Vector Posted 64 := Vector.replicate 64 {}
  /-- MODEL: answer of the latest access made by a command with a direct result. -/
  lastAcc : AccRes := .ok 0
  deriving DecidableEq, Repr

/-- The whole block. -/
structure State where
  clk : Clock := {}
  hlm : Vector Hlm 20 := Vector.replicate 20 {}
  port : Vector Port 320 := Vector.replicate 320 {}
  chan : Vector Chan 64 := Vector.replicate 64 {}
  map : Map := {}
  /-- Stored data: physical byte address and byte, canonical (Machine/Ops.lean), unlisted bytes 0. -/
  dram : List Host.Cell := []
  /-- R225: lines written as stored poison (line keys, rising). -/
  poisonLines : List Nat := []
  mgmt : Mgmt := {}
  pwr : Power := {}
  boot : Boot := {}
  /-- Commands waiting, first in first out. -/
  pending : List Instr := []
  deriving DecidableEq, Repr

/-- No command of Grehielm ends in a fault: every error of the spec is a response, an event or a status of the state. -/
inductive Fault where
  deriving DecidableEq, Repr

/-- Why a command has no meaning. -/
inductive Refusal where
  /-- Raised by an arm of `exec` whose command is not modelled yet; safe (nothing follows from it). -/
  | notModelled (mnemonic : String)
  deriving DecidableEq, Repr

/-- The block in cold reset, gh_pwrgood_i low: every field at its reset value; the queue is empty. -/
def State.reset : State := {}

end Sys2Proof.Machine
end

