-- ==== Sys2Proof/Machine/Ops.lean ====
section
/-! DEFINITION. The named operations over the state that every meaning is written with: units, clock, free values,
stored data, counters and windows, occurrences of events, responses, credits. -/

namespace Sys2Proof.Machine

/-! ## Units -/

def State.updHlm (s : State) (m : Mod) (f : Hlm → Hlm) : State := { s with hlm := upd s.hlm m f }
def State.updPort (s : State) (k : PortK) (f : Port → Port) : State := { s with port := upd s.port k f }
def State.updChan (s : State) (n : Ch) (f : Chan → Chan) : State := { s with chan := upd s.chan n f }
def State.updMgmt (s : State) (f : Mgmt → Mgmt) : State := { s with mgmt := f s.mgmt }
def State.updPwr (s : State) (f : Power → Power) : State := { s with pwr := f s.pwr }
def State.updBoot (s : State) (f : Boot → Boot) : State := { s with boot := f s.boot }
def State.updMap (s : State) (f : Map → Map) : State := { s with map := f s.map }
def State.updClk (s : State) (f : Clock → Clock) : State := { s with clk := f s.clk }
def State.updMb (s : State) (k : Mb) (f : Mailbox → Mailbox) : State :=
  s.updMgmt fun g => { g with mb := upd g.mb k f }
def State.updEv (s : State) (e : Ev) (f : EvSrc → EvSrc) : State :=
  s.updMgmt fun g => { g with ev := upd g.ev e f }
def State.updLog (s : State) (f : SilkLog → SilkLog) : State := s.updMgmt fun g => { g with log := f g.log }
def State.updFuse (s : State) (f : Fuses → Fuses) : State := s.updMgmt fun g => { g with fuse := f g.fuse }
def State.updFw (s : State) (f : Fw → Fw) : State := s.updMgmt fun g => { g with fw := f g.fw }
def State.updScrub (s : State) (f : Scrub → Scrub) : State := s.updMgmt fun g => { g with scrub := f g.scrub }
def State.updTherm (s : State) (f : Thermal → Thermal) : State := s.updMgmt fun g => { g with therm := f g.therm }
def State.updI3c (s : State) (t : Fin 4) (f : I3cTgt → I3cTgt) : State :=
  s.updMgmt fun g => { g with i3c := upd g.i3c t f }
def State.mb (s : State) (k : Mb) : Mailbox := s.mgmt.mb.get k
def State.fw (s : State) : Fw := s.mgmt.fw

def Chan.updSt (c : Chan) (f : ChanSt → ChanSt) : Chan := { c with st := f c.st }
def Chan.updCnt (c : Chan) (f : ChanCnt → ChanCnt) : Chan := { c with cnt := f c.cnt }
def Chan.updRf (c : Chan) (f : Refresh → Refresh) : Chan := { c with rf := f c.rf }
def Chan.updPc (c : Chan) (p : Pc) (f : LaneGroup → LaneGroup) : Chan := { c with pc := upd c.pc p f }
def Chan.updBank (c : Chan) (b : BankIx) (f : BankSt → BankSt) : Chan :=
  c.updSt fun x => { x with banks := upd x.banks b f }
def Chan.bank (c : Chan) (b : BankIx) : BankSt := c.st.banks.get b
def Chan.trk (c : Chan) (b : BankIx) : Tracker := c.rf.trk.get b
def Chan.updTrk (c : Chan) (b : BankIx) (f : Tracker → Tracker) : Chan :=
  c.updRf fun r => { r with trk := upd r.trk b f }
def Chan.updEntry (c : Chan) (i : EntryIx) (f : Entry → Entry) : Chan :=
  c.updSt fun x => { x with tt := x.tt.map fun e => if e.idx = i then f e else e }
def Chan.entry? (c : Chan) (i : EntryIx) : Option Entry := c.st.tt.find? (·.idx = i)
def allCh : List Ch := List.finRange 64
def allMod : List Mod := List.finRange 20
def allBank : List BankIx := List.finRange 128

/-- Apply a change to every channel, module, port. -/
def State.mapChan (s : State) (f : Ch → Chan → Chan) : State :=
  { s with chan := Vector.ofFn fun i => f i (s.chan.get i) }
def State.mapHlm (s : State) (f : Mod → Hlm → Hlm) : State :=
  { s with hlm := Vector.ofFn fun i => f i (s.hlm.get i) }
def State.mapPort (s : State) (f : PortK → Port → Port) : State :=
  { s with port := Vector.ofFn fun i => f i (s.port.get i) }
def State.mapMb (s : State) (f : Mb → Mailbox → Mailbox) : State :=
  s.updMgmt fun g => { g with mb := Vector.ofFn fun i => f i (g.mb.get i) }

/-! ## Identifiers (R5 to R8, R273) -/

/-- R7: the global port number. -/
def gport (m : Mod) (p : BitVec 4) : PortK := Fin.ofNat 320 (16 * m.val + p.toNat)
/-- The module and local port of a global port. -/
def portMod (g : BitVec 9) : Mod := Fin.ofNat 20 (g.toNat / 16)
def portLocal (g : BitVec 9) : BitVec 4 := BitVec.ofNat 4 (g.toNat % 16)
/-- R340: the identity of an in-band port. -/
def portIdent (m : Mod) (p : BitVec 4) : Ident := BitVec.ofNat 11 (gport m p).val
def fwIdent : Ident := 0x600
def sbIdent (t : Fin 4) : Ident := BitVec.ofNat 11 (0x210 + t.val)
def dbgIdent (j : Fin 4) : Ident := BitVec.ofNat 11 (0x414 + j.val)
/-- R340: class of an identity: 0 in-band, 1 sideband, 2 debug, 3 firmware. -/
def identClass (w : Ident) : Nat := w.toNat / 512

def evUnc (n : Ch) : Ev := Fin.ofNat 360 (4 * n.val)
def evCorr (n : Ch) : Ev := Fin.ofNat 360 (4 * n.val + 1)
def evTherm (n : Ch) : Ev := Fin.ofNat 360 (4 * n.val + 2)
def evLane (n : Ch) : Ev := Fin.ofNat 360 (4 * n.val + 3)
def evRetry (m : Mod) : Ev := Fin.ofNat 360 (256 + 2 * m.val)
def evPolice (m : Mod) : Ev := Fin.ofNat 360 (257 + 2 * m.val)
def evOutFull (k : Mb) : Ev := Fin.ofNat 360 (296 + 2 * k.val)
def evInEmpty (k : Mb) : Ev := Fin.ofNat 360 (297 + 2 * k.val)

/-- R37: leader and follower of a pair, and the pair of a channel. -/
def leader (c : PairIx) : Ch := Fin.ofNat 64 c.val
def follower (c : PairIx) : Ch := Fin.ofNat 64 (c.val + 32)
def pairOf (n : Ch) : PairIx := Fin.ofNat 32 (n.val % 32)
def partner (n : Ch) : Ch := Fin.ofNat 64 ((n.val + 32) % 64)
def Map.isJoined (m : Map) (n : Ch) : Bool := m.joined.getLsbD (pairOf n).val
/-- The channel whose engine serves a channel: the leader of a joined pair, otherwise itself. -/
def Map.server (m : Map) (n : Ch) : Ch := if m.isJoined n then leader (pairOf n) else n
/-- R37: the engine is the idle follower of a joined pair. -/
def Map.isFollower (m : Map) (n : Ch) : Bool := m.isJoined n && decide (32 ≤ n.val)
/-- R146: the channels that a command of engine n reaches. -/
def Map.reach (m : Map) (n : Ch) : List Ch := if m.isJoined n then [n, partner n] else [n]
/-- R5. -/
def quadOf (n : Ch) : Fin 16 := Fin.ofNat 16 (n.val / 4)

end Sys2Proof.Machine

namespace Sys2Proof

/-- Bank index of a place (R102: b = 4 ba + bg). -/
def Loc.bank (l : Loc) : BankIx :=
  Fin.ofNat 128 (64 * l.pc.toNat + 16 * l.sid.toNat + 4 * l.ba.toNat + l.bg.toNat)
def Loc.pcIx (l : Loc) : Pc := Fin.ofNat 2 l.pc.toNat
def Loc.sidIx (l : Loc) : SidIx := Fin.ofNat 4 l.sid.toNat
/-- Same bank and row. -/
def Loc.sameRow (a b : Loc) : Bool := decide (a.bank = b.bank ∧ a.row = b.row)

end Sys2Proof

namespace Sys2Proof.Machine

def bankPc (b : BankIx) : Pc := Fin.ofNat 2 (b.val / 64)
def bankSid (b : BankIx) : SidIx := Fin.ofNat 4 (b.val / 16 % 4)
def bankB (b : BankIx) : Nat := b.val % 16
/-- A place in a bank. -/
def bankLoc (b : BankIx) (row : BitVec 14) (col : BitVec 4) : Loc :=
  { pc := BitVec.ofNat 1 (b.val / 64), sid := BitVec.ofNat 2 (b.val / 16), bg := BitVec.ofNat 2 (b.val % 4),
    ba := BitVec.ofNat 2 (b.val / 4), row := row, col := col }
/-! ## Power domains (R40, R320): AON, MGMT, XBAR, the modules, the quads -/

def modDom (m : Mod) : Fin 39 := Fin.ofNat 39 (3 + m.val)
def quadDom (q : Nat) : Fin 39 := Fin.ofNat 39 (23 + q)
/-- R320: the domain has taken its last power-up step: isolation is released. -/
def State.domOn (s : State) (d : Fin 39) : Bool := s.pwr.dom.get d == 4
/-- R321, R322: isolation is in force: every clamp of the domain holds. -/
def State.isolated (s : State) (d : Fin 39) : Bool := s.pwr.dom.get d != 4
/-- R321: the domain is on its way down: its isolation is in force, its logic in reset, and its clock still runs; 20 ns after the isolation
the clock stops and the switch opens (log entry 70, DESIGN CHOICE). -/
def State.goingDown (s : State) (d : Fin 39) : Bool := s.pwr.dom.get d == 0 && decide (s.clk.now < s.pwr.downAt.get d + 20)
/-- R320, R321: the clock of the domain runs: from its second power-up step until 20 ns into its power-down. -/
def State.domClock (s : State) (d : Fin 39) : Bool := decide (2 ≤ s.pwr.dom.get d) || s.goingDown d
/-- R320, R321: the power switch of the domain is closed. -/
def State.domSwitch (s : State) (d : Fin 39) : Bool :=
  decide (1 ≤ s.pwr.dom.get d) || s.goingDown d || s.pwr.seqOn.getLsbD d.val
/-- R320, R321: the memory of the domain is powered; else it is off, or in retention. -/
def State.domMem (s : State) (d : Fin 39) : Bool := decide (3 ≤ s.pwr.dom.get d)
def State.modOn (s : State) (m : Mod) : Bool := s.domOn (modDom m)
def State.quadOn (s : State) (n : Ch) : Bool := s.domOn (quadDom (quadOf n).val)

/-! ## Clock (log entry 2, DESIGN CHOICE) -/

/-- Let time pass until `t` (never back). R157: the time base counts while the PLL is locked. -/
def State.advance (s : State) (t : Nat) : State :=
  s.updClk fun k =>
    if t ≤ k.now then k
    else { k with now := t, timeBase := if k.pllLock then k.timeBase + BitVec.ofNat 64 (t - k.now) else k.timeBase }
def State.now (s : State) : Nat := s.clk.now
def State.tb (s : State) : Nat := s.clk.timeBase.toNat
/-- A warm boot is in progress (R434). -/
def State.inWarm (s : State) : Bool := match s.boot.ph with
  | .warm _ => true
  | .off | .cold _ | .up => false
/-- R310: a request is accepted or answered, or other work ends: the quiet time starts anew. -/
def State.stir (s : State) : State :=
  let now := s.now
  s.updPwr fun p => { p with stirAt := now }
/-- One CC passes. -/
def State.tick (s : State) : State := s.advance (s.clk.now + 1)

/-! ## Free values (log entry 4, DESIGN CHOICE) -/

def State.drawBits (s : State) (w : Nat) : BitVec w × State :=
  (Config.freeBits w s.clk.freeCtr, s.updClk fun k => { k with freeCtr := k.freeCtr + 1 })
def State.drawNat (s : State) (bound : Nat) : Nat × State :=
  (Config.freeChoice bound s.clk.freeCtr % bound, s.updClk fun k => { k with freeCtr := k.freeCtr + 1 })

/-! ## Byte memories in canonical form -/

/-- Addresses strictly rising, no byte equal to 0, which is what an unlisted address reads as. -/
def memWf : List Host.Cell → Bool
  | [] => true
  | [c] => c.2 != 0
  | c :: d :: r => c.2 != 0 && decide (c.1 < d.1) && memWf (d :: r)

def memRead (l : List Host.Cell) (a : Nat) : Byte :=
  match l with
  | [] => 0
  | c :: r => if c.1 = a then c.2 else memRead r a

/-- Writing 0 removes the entry. -/
def memWrite (l : List Host.Cell) (a : Nat) (v : Byte) : List Host.Cell :=
  match l with
  | [] => if v = 0 then [] else [(a, v)]
  | c :: r =>
    if c.1 < a then c :: memWrite r a v
    else if c.1 = a then (if v = 0 then r else (a, v) :: r)
    else if v = 0 then c :: r else (a, v) :: c :: r

/-- `n` bytes from `a` as a little-endian number. -/
def memReadN (l : List Host.Cell) (a : Nat) : Nat → Nat
  | 0 => 0
  | n + 1 => (memRead l a).toNat + 256 * memReadN l (a + 1) n

def memWriteN (l : List Host.Cell) (a : Nat) (v : Nat) : Nat → List Host.Cell
  | 0 => l
  | n + 1 => memWriteN (memWrite l a (BitVec.ofNat 8 v)) (a + 1) (v / 256) n

def memReadW (l : List Host.Cell) (a : Nat) : Word := BitVec.ofNat 32 (memReadN l a 4)
def memWriteW (l : List Host.Cell) (a : Nat) (v : Word) : List Host.Cell := memWriteN l a v.toNat 4

/-! ## Stored data -/

/-- Key of a 64-byte line in the core dies. -/
def lineKey (n : Ch) (l : Loc) : Nat :=
  (((((n.val * 2 + l.pc.toNat) * 4 + l.sid.toNat) * 16 + (4 * l.ba.toNat + l.bg.toNat)) * 16384 + l.row.toNat) * 16)
    + l.col.toNat

def State.readLine (s : State) (n : Ch) (l : Loc) : Line := BitVec.ofNat 512 (memReadN s.dram (lineKey n l * 64) 64)

/-- Insert and remove a key of a rising list. -/
def keyInsert (k : Nat) : List Nat → List Nat
  | [] => [k]
  | x :: r => if x < k then x :: keyInsert k r else if x = k then x :: r else k :: x :: r

def State.isPoison (s : State) (n : Ch) (l : Loc) : Bool := s.poisonLines.contains (lineKey n l)

/-- R222: a full write with fresh check symbols: the line is good. -/
def State.writeLine (s : State) (n : Ch) (l : Loc) (d : Line) : State :=
  { s with dram := memWriteN s.dram (lineKey n l * 64) d.toNat 64,
           poisonLines := s.poisonLines.filter (· ≠ lineKey n l) }

/-- R225: the data bytes as received, marked as stored poison. -/
def State.writePoison (s : State) (n : Ch) (l : Loc) (d : Line) : State :=
  let s := s.writeLine n l d
  { s with poisonLines := keyInsert (lineKey n l) s.poisonLines }

/-- The stored line of engine n: the pair's 128 bytes when `twin`, else the 64 bytes in the low half (R108). -/
def State.readStored (s : State) (n : Ch) (twin : Bool) (l : Loc) : PairLine :=
  if twin then (s.readLine (partner n) l).append (s.readLine n l) else (s.readLine n l).setWidth 1024
def State.storedPoison (s : State) (n : Ch) (twin : Bool) (l : Loc) : Bool :=
  s.isPoison n l || (twin && s.isPoison (partner n) l)
def State.writeStored (s : State) (n : Ch) (twin : Bool) (l : Loc) (d : PairLine) : State :=
  let s := s.writeLine n l (d.setWidth 512)
  if twin then s.writeLine (partner n) l ((d >>> 512).setWidth 512) else s
def State.writeStoredPoison (s : State) (n : Ch) (twin : Bool) (l : Loc) (d : PairLine) : State :=
  let s := s.writePoison n l (d.setWidth 512)
  if twin then s.writePoison (partner n) l ((d >>> 512).setWidth 512) else s

/-- Byte-masked merge of a line. -/
def mergeBytes {w k : Nat} (old new : BitVec w) (mask : BitVec k) : BitVec w :=
  (List.range k).foldl (fun acc i =>
    if mask.getLsbD i then
      let m := (BitVec.ofNat w 255) <<< (8 * i)
      (acc &&& ~~~ m) ||| (new &&& m)
    else acc) old

/-! ## Counters and windows -/

/-- A saturating increment (R98, R167, R408). -/
def satInc {w : Nat} (v : BitVec w) : BitVec w := if v = BitVec.allOnes w then v else v + 1

/-- Count into a window (R72, R167, R224): it opens at the first count after the last close, with the length and the
threshold then in force. The Boolean says that the count has just reached a threshold other than 0. -/
def countIn (w : Option Window) (now length thresh : Nat) : Window × Bool :=
  match w with
  | none => ({ openedAt := now, length := length, thresh := thresh, count := 1 }, thresh == 1)
  | some x =>
    if x.openedAt + x.length ≤ now then
      ({ openedAt := now, length := length, thresh := thresh, count := 1 }, thresh == 1)
    else ({ x with count := x.count + 1 }, x.thresh != 0 && x.count + 1 == x.thresh)

/-! ## Occurrences (R412 to R415) -/

/-- An occurrence of a source sets out for the event controller. -/
def State.raise (s : State) (e : Ev) (cause : BitVec 8) (detA : BitVec 24) (detB : Word) : State :=
  let o : Occ := { e := e, cause := cause, detA := detA, detB := detB, tb := s.clk.timeBase }
  s.updMgmt fun g => { g with occq := g.occq ++ [o] }

/-- R413: a global source. -/
def State.raiseG (s : State) (i : Nat) (detA : BitVec 24) (detB : Word) : State :=
  s.raise (Fin.ofNat 360 i) 1 detA detB

/-! ## Responses, tags and credits (R80 to R88) -/

def State.queueOut (s : State) (m : Mod) (o : OutMsg) : State := s.updHlm m fun h => { h with txq := h.txq ++ [o] }

/-- R88: a credit becomes due. -/
def Hlm.creditDue (h : Hlm) : Credit → Hlm
  | .none => h
  | .read => { h with dueRead := h.dueRead + 1 }
  | .write => { h with dueWrite := h.dueWrite + 1 }
  | .ctrl => { h with dueCtrl := h.dueCtrl + 1 }

def Hlm.creditUse (h : Hlm) : Credit → Hlm
  | .none => h
  | .read => { h with crRead := h.crRead - 1 }
  | .write => { h with crWrite := h.crWrite - 1 }
  | .ctrl => { h with crCtrl := h.crCtrl - 1 }

def Hlm.creditAvail (h : Hlm) : Credit → Bool
  | .none => true
  | .read => decide (0 < h.crRead)
  | .write => decide (0 < h.crWrite)
  | .ctrl => decide (0 < h.crCtrl)

/-- A response without data. -/
def outMsg (opc : BitVec 6) (port : BitVec 4) (tag : BitVec 10) : OutMsg :=
  { opc := opc, port := port, tag := tag, status := 0, poison := false, dsz := 0, aux := 0, data := 0, credit := .none }

/-- R81: opcodes. -/
def opRDATA : BitVec 6 := 0x01
def opWACK : BitVec 6 := 0x02
def opAMOR : BitVec 6 := 0x03
def opSTCR : BitVec 6 := 0x04
def opFENCE : BitVec 6 := 0x05
def opCFGDATA : BitVec 6 := 0x06
def opTHROTTLED : BitVec 6 := 0x07
def opERROR : BitVec 6 := 0x08
def opEVENT : BitVec 6 := 0x10

/-- R82: error codes. -/
def errADDR : BitVec 4 := 1
def errMISALIGN : BitVec 4 := 2
def errBADFLD : BitVec 4 := 3
def errNOCREDIT : BitVec 4 := 4
def errTAGDUP : BitVec 4 := 5
def errDENIED : BitVec 4 := 6
def errUNAVAIL : BitVec 4 := 7
def errMODE : BitVec 4 := 8
def errHWFAULT : BitVec 4 := 9
def errPOWER : BitVec 4 := 0xA

/-- R198: writes of a port in the posted-write buffer that were accepted before `seq`. -/
def Hlm.postedBefore (h : Hlm) (port : BitVec 4) (seq : Nat) : Bool :=
  h.posted.any fun r => r.port == port && decide (r.seq < seq)

/-- R77, R198: refuse with ERROR; the response is held until the port's earlier writes have drained. -/
def Hlm.refuseErr (h : Hlm) (port : BitVec 4) (tag : BitVec 10) (code : BitVec 4) (aux : Word) (retire : Bool) : Hlm :=
  if h.postedBefore port h.seq then
    { h with errs := h.errs ++ [{ seq := h.seq, port := port, tag := tag, code := code, aux := aux, retire := retire }] }
  else { h with txq := h.txq ++ [{ outMsg opERROR port tag with status := code, aux := aux, retire := retire }] }

/-- R413 EV356 and R82: an ERROR HWFAULT for a tag that a module holds. -/
def State.hwFault (s : State) (m : Mod) (port : BitVec 4) (tag : BitVec 10) (aux : Word) (kind : BitVec 24) (n : Option Ch) :
    State :=
  let s := s.queueOut m { outMsg opERROR port tag with status := errHWFAULT, aux := aux }
  let det : Word := BitVec.ofNat 32 (m.val + match n with | some c => 2 ^ 14 + 256 * c.val | none => 0)
  s.raiseG 356 kind det

/-! ## Entries to a lower power state (R310, R311) -/

/-- R311: a native entry that has not passed its commit point. -/
def Power.abortable (p : Power) : Bool :=
  !p.bySr && match p.ph with
    | .none => false
    | .defer => true
    | .step k => decide (k ≤ 4)

/-- R311: the entry has passed its commit point. -/
def Power.committed (p : Power) : Bool := match p.ph with
  | .none | .defer => false
  | .step k => decide (5 ≤ k)

/-- R308, R310: Grehielm is in Imago, in the deferral of an entry too. -/
def Power.inImago (p : Power) : Bool :=
  p.state == .imago || (p.ph == .defer && p.from_ == .imago && (p.state == .toPupa || p.state == .toChrysalis))

/-- R311: an entry is aborted: the state it left is kept, Priri leaves its wait, the abort is counted and reported. -/
def State.abortEntry (s : State) (cause : BitVec 4) : State :=
  if s.pwr.abortable then
    let s := s.updPwr fun p => { p with ph := .none, state := p.from_, target := 0, lastAbort := cause, aborts := p.aborts + 1 }
    let s := s.updFw fun f => { f with waiting := false }
    s.raiseG 352 (cause.setWidth 24) 0
  else s

/-! ## Firmware answers (R351, R366) -/

/-- Exaux status codes (R367). -/
def stOK : BitVec 4 := 0
def stUNKNOWN : BitVec 4 := 1
def stDENIED : BitVec 4 := 2
def stBADARG : BitVec 4 := 3
def stLENGTH : BitVec 4 := 4
def stBUSY : BitVec 4 := 5
def stSTATE : BitVec 4 := 6
def stNORESOURCE : BitVec 4 := 7
def stDUPTAG : BitVec 4 := 8
def stRESTARTED : BitVec 4 := 9
def stFAULT : BitVec 4 := 0xA
def stVERIFY : BitVec 4 := 0xB
def stABORTED : BitVec 4 := 0xC

def cmdOpcode (w : Word) : BitVec 7 := w.extractLsb' 14 7
def cmdTag (w : Word) : BitVec 2 := w.extractLsb' 12 2
def cmdArg (w : Word) : BitVec 12 := w.extractLsb' 0 12

/-- Bits [hi:lo] of an argument. -/
def argBits (w : Word) (lo n : Nat) : Nat := ((cmdArg w).extractLsb' lo n).toNat

/-- R362: the first byte of a command's layout. -/
def winBase (w : Word) : Nat := 64 * argBits w 6 6

/-- A field of `n` bytes at offset `off` of a command's layout. -/
def State.winField (s : State) (k : Mb) (w : Word) (off n : Nat) : Nat := memReadN (s.mb k).win (winBase w + off) n

def cmdStamp (w : Word) : Ident := w.extractLsb' 21 11

/-- An answer becomes ready: it waits inside firmware for FW_POST, and the command is no longer in progress. -/
def State.answer (s : State) (k : Mb) (tag : BitVec 2) (status : BitVec 4) (result : BitVec 8) : State :=
  s.updMb k fun b =>
    match b.cmds.find? (·.tag = tag) with
    | none => b
    | some c => { b with
        cmds := b.cmds.filter (·.tag ≠ tag)
        answers := b.answers ++ [{ opcode := cmdOpcode c.word, tag := tag, status := status, result := result }] }

/-- The same, for a command that may have gone (R26, R394). -/
def State.answerTo (s : State) (by_ : Option (Mb × BitVec 2)) (status : BitVec 4) (result : BitVec 8) : State :=
  match by_ with
  | none => s
  | some (k, t) => s.answer k t status result

/-- R368: notices, coalesced by kind: SCRUB_DONE 1 never, LANE_DONE 2 into one (ABORTED wins), FW_READY 3 the latest. -/
def State.notice (s : State) (k : Mb) (kind : BitVec 8) (status : BitVec 4) : State :=
  s.updMb k fun b =>
    let isK := fun (a : Answer) => a.opcode == 0x7F && a.result == kind
    let new : Answer := { opcode := 0x7F, tag := 0, status := status, result := kind }
    if kind = 2 && b.answers.any isK then
      { b with answers := b.answers.map fun a => if isK a && status = stABORTED then { a with status := stABORTED } else a }
    else if kind = 3 then { b with answers := b.answers.filter (fun a => !isK a) ++ [new] }
    else { b with answers := b.answers ++ [new] }

end Sys2Proof.Machine
end

