-- ==== Sys2Proof/Machine/Operands.lean ====
section
/-! DEFINITION. The forms in which data enters and leaves the block: the address decode, flits and messages, ZCI
frames and bursts, and the positions and syndromes of the Reed-Solomon code. -/

namespace Sys2Proof.Machine

/-! ## Address map (R100 to R114) -/

/-- R100. -/
def Map.nrow (m : Map) : Nat := if m.density = 0 then 6144 else if m.density = 1 then 8192 else 12288

/-- R101: the channel of each slot, in slot order. -/
def Map.slots (m : Map) : List Ch :=
  let both := (List.finRange 32).flatMap fun c =>
    if m.mapped.getLsbD c.val && m.mapped.getLsbD (c.val + 32) then [leader c, follower c] else []
  let one := (List.finRange 32).flatMap fun c =>
    match m.mapped.getLsbD c.val, m.mapped.getLsbD (c.val + 32) with
    | true, false => [leader c]
    | false, true => [follower c]
    | _, _ => []
  both ++ one

def Map.nslot (m : Map) : Nat := m.slots.length

/-- R104, in bytes. -/
def Map.capacity (m : Map) : Nat := m.nslot * m.nrow * m.nsid * 32768

/-- R102: where an address lies; `status` as GLB_MAP_PROBE_RES0 reports it (R114). -/
structure Dec where
  status : BitVec 4
  slot : Nat
  chan : Ch
  twin : Bool
  half : Bool
  loc : Loc
  deriving DecidableEq, Repr

/-- R105: the channel hash is applied. -/
def Map.xorActive (m : Map) : Bool := m.xorCh && m.nslot == 64

/-- R102. Statuses: 0 in range, 1 at or above capacity, 2 hole, 3 pair in transition. -/
def Map.decode (m : Map) (addr : BitVec 40) : Dec :=
  let g := 2 * m.gran.toNat
  let L := addr.toNat / 64
  let ns := m.nslot
  let cl := L % 2 ^ g
  let L := L / 2 ^ g
  let s := L % ns
  let L := L / ns
  let pc := L % 2
  let L := L / 2
  let b := L % 16
  let L := L / 16
  let chc := L % 2 ^ (4 - g)
  let L := L / 2 ^ (4 - g)
  let row := L % m.nrow
  let sid := L / m.nrow
  let none : Dec := { status := 1, slot := 0, chan := 0, twin := false, half := false, loc := ⟨0, 0, 0, 0, 0, 0⟩ }
  if ns = 0 ∨ m.nsid ≤ sid then none
  else
    let s := if m.xorActive then s ^^^ (((row % 64) ^^^ (row / 64 % 64)) &&& 0x3E) else s
    let b := if m.xorBank then b ^^^ ((row % 16) ^^^ (row / 16 % 16)) else b
    let ch : Ch := m.slots.getD s 0
    if m.hole.getLsbD ch.val then { none with status := 2 }
    else if m.trans.getLsbD (pairOf ch).val then { none with status := 3 }
    else
      let twin := m.isJoined ch
      let q := (s % 2) * 2 ^ g + cl
      let col := if twin then chc * 2 ^ g + q / 2 else chc * 2 ^ g + cl
      let half := twin && q % 2 == 1
      let chan := if twin then (if half then follower (pairOf ch) else leader (pairOf ch)) else ch
      { status := 0, slot := s, chan := chan, twin := twin, half := half,
        loc := { pc := BitVec.ofNat 1 pc, sid := BitVec.ofNat 2 sid, bg := BitVec.ofNat 2 (b % 4),
                 ba := BitVec.ofNat 2 (b / 4), row := BitVec.ofNat 14 row, col := BitVec.ofNat 4 col } }

/-- Status of an address of a slot in transition or a hole, with the channel that backs its slot: the channel whose
reset or transition check 9 asks about. -/
def Map.slotChan (m : Map) (addr : BitVec 40) : Ch :=
  (Map.decode { m with hole := 0, trans := 0 } addr).chan

/-- R114. -/
def Dec.res0 (d : Dec) : Word := d.status ++ (0 : BitVec 2) ++ d.loc.sid ++ (0 : BitVec 10) ++ d.loc.row
def Dec.res1 (d : Dec) : Word :=
  (0 : BitVec 8) ++ BitVec.ofNat 6 d.slot ++ BitVec.ofNat 6 d.chan.val ++ bit1 d.twin ++ bit1 d.half ++ d.loc.pc
    ++ d.loc.bg ++ d.loc.ba ++ d.loc.col ++ (0 : BitVec 1)

/-! ## Requests and responses (R73 to R82) -/

/-- R74: data slots of a request; none for a reserved opcode or an AMO length that is a protocol error (R95). -/
def reqSlots (opc : BitVec 6) (szf : BitVec 4) : Option Nat :=
  let o := opc.toNat
  if o ≤ 4 ∨ o = 0x20 ∨ o = 0x21 ∨ o = 0x28 ∨ o = 0x3E then some 0
  else if o = 8 then some 8
  else if o = 9 then some 9
  else if o = 0xA ∨ o = 0x29 then some 1
  else if 0x10 ≤ o ∧ o ≤ 0x18 then (if szf.getLsbD 1 then none else some 1)
  else if o = 0x19 then
    (if szf.toNat % 4 = 1 then some 2 else if szf.toNat % 4 = 2 then some 4 else none)
  else none

/-- R73. -/
def parseHdr (w : BitVec 64) : BitVec 6 × ReqHdr :=
  (w.extractLsb' 0 6,
   { port := w.extractLsb' 6 4, tag := w.extractLsb' 10 10, szf := w.extractLsb' 60 4, addr := w.extractLsb' 20 40 })

/-- R64: data slot i is bytes 8i to 8i + 7. -/
def joinSlots : List (BitVec 64) → Nat
  | [] => 0
  | x :: r => x.toNat + 2 ^ 64 * joinSlots r

/-- R75: what of the data slots has a meaning. -/
def normData (opc : BitVec 6) (d : BitVec 576) : BitVec 576 := if opc = 0x29 then d.setWidth 32 |>.setWidth 576 else d

/-- R80. -/
def respHdr (o : OutMsg) : BitVec 64 :=
  o.aux ++ (0 : BitVec 4) ++ o.dsz ++ bit1 o.poison ++ o.status ++ o.tag ++ o.port ++ o.opc

/-- R80: data slots of a response by dsz. -/
def dszSlots (d : BitVec 3) : Nat :=
  if d = 0 then 0 else if d = 1 then 1 else if d = 2 then 2 else if d = 3 then 8 else 16

/-- The slots of a response message; the Boolean marks the header slot. -/
def respSlots (o : OutMsg) : List (Bool × BitVec 64) :=
  (true, respHdr o) :: (List.range (dszSlots o.dsz)).map fun i => (false, o.data.extractLsb' (64 * i) 64)

/-- R93: the header slot of an EVENT message with the source's count. -/
def eventSlot (e : Ev) (port : BitVec 4) (occ : BitVec 16) : BitVec 64 :=
  occ ++ (0 : BitVec 7) ++ BitVec.ofNat 9 e.val ++ (0 : BitVec 4) ++ (0 : BitVec 3) ++ (0 : BitVec 1) ++ (0 : BitVec 4)
    ++ (0 : BitVec 10) ++ port ++ opEVENT

/-! ## Flits (R59 to R65) -/

/-- One bit step of the ECMA-182 CRC-64 (R60). -/
def crcBit (c : Nat) : Nat :=
  if c.testBit 63 then ((2 * c) % 2 ^ 64) ^^^ 0x42F0E1EBA9EA3693 else 2 * c

/-- R60: one byte, most significant bit first. -/
def crcByte (c : Nat) (b : Nat) : Nat :=
  crcBit (crcBit (crcBit (crcBit (crcBit (crcBit (crcBit (crcBit (c ^^^ (b * 2 ^ 56)))))))))

/-- R60: over `n` bytes from the low end of a number. -/
def crcBytes (c : Nat) (v : Nat) : Nat → Nat
  | 0 => c
  | n + 1 => crcBytes (crcByte c (v % 256)) (v / 256) n

/-- R60: the CRC-64 of the low 248 bytes of a flit. -/
def flitCrc (body : Nat) : Nat := crcBytes (2 ^ 64 - 1) body 248 ^^^ (2 ^ 64 - 1)

/-- R59: byte i of a flit is its bits 8i + 7 .. 8i. -/
def flitCrcOk (f : BitVec 2048) : Bool := flitCrc (f.toNat % 2 ^ 1984) == f.toNat / 2 ^ 1984
def flitSlot (f : BitVec 2048) (s : Nat) : BitVec 64 := f.extractLsb' (64 + 64 * s) 64
def flitSlots (f : BitVec 2048) : List (BitVec 64) := (List.range 30).map (flitSlot f)

/-- R61: the fields of a flit header. -/
structure FlitHdr where
  nak : Bool
  ackv : Bool
  ccr : BitVec 4
  wcr : BitVec 6
  rcr : BitVec 6
  fhs : BitVec 5
  ftype : BitVec 4
  ack : BitVec 12
  seq : BitVec 12
  deriving DecidableEq, Repr

def parseFlitHdr (f : BitVec 2048) : FlitHdr :=
  { nak := f.getLsbD 50, ackv := f.getLsbD 49, ccr := f.extractLsb' 45 4, wcr := f.extractLsb' 39 6,
    rcr := f.extractLsb' 33 6, fhs := f.extractLsb' 28 5, ftype := f.extractLsb' 24 4, ack := f.extractLsb' 12 12,
    seq := f.extractLsb' 0 12 }

def FlitHdr.bits (h : FlitHdr) : BitVec 64 :=
  (0 : BitVec 13) ++ bit1 h.nak ++ bit1 h.ackv ++ h.ccr ++ h.wcr ++ h.rcr ++ h.fhs ++ h.ftype ++ h.ack ++ h.seq

/-- R59, R60: a flit from its header and slots. -/
def mkFlit (h : FlitHdr) (slots : BitVec 1920) : BitVec 2048 :=
  let body := h.bits.toNat + 2 ^ 64 * slots.toNat
  BitVec.ofNat 2048 (body + 2 ^ 1984 * flitCrc body)

/-- R63: the outcome of parsing the slots of one flit: messages completed, remainder, slot of the first header begun in
this flit, and whether a protocol error stopped the parse. -/
structure Parse where
  msgs : List Msg
  part : List (BitVec 64)
  first : Option Nat
  bad : Bool
  deriving DecidableEq, Repr

/-- R63, R65, R95: take one slot of the stream. `fhs` is what the header of the flit claims. -/
def parseSlot (fhs : BitVec 5) (p : Parse) (i : Nat) (w : BitVec 64) : Parse :=
  if p.bad then p
  else
    let isHdr := p.part.isEmpty
    let p := if isHdr && p.first.isNone then { p with first := some i, bad := decide (fhs.toNat ≠ i) } else p
    if p.bad then p
    else
      let part := p.part ++ [w]
      let hd := parseHdr (part.headD 0)
      match reqSlots hd.1 hd.2.szf with
      | none => { p with bad := true }
      | some n =>
        if part.length < n + 1 then { p with part := part }
        else if hd.1 = 0 then { p with part := [] }
        else
          let m : Msg := { opc := hd.1, hdr := hd.2, data := normData hd.1 (BitVec.ofNat 576 (joinSlots part.tail)) }
          { p with part := [], msgs := p.msgs ++ [m] }

/-- R65: parse the slots of an accepted flit after the remainder `part` of the stream. Of a flit with fhs = 30 no slot is
parsed, not even those that continue an earlier message (log entry 55, DESIGN CHOICE). -/
def parseSlots (part : List (BitVec 64)) (fhs : BitVec 5) (slots : List (BitVec 64)) : Parse :=
  let start : Parse := { msgs := [], part := part, first := none, bad := fhs == 30 }
  let p := (slots.zip (List.range 30)).foldl (fun p x => parseSlot fhs p x.2 x.1) start
  if !p.bad && p.first.isNone && fhs != 31 then { p with bad := true } else p

/-! ## ZCI frames (R275 to R278) and bursts (R280) -/

/-- Even parity of a word. -/
def parity {w : Nat} (v : BitVec w) : Bool := (List.range w).foldl (fun a i => a ^^ v.getLsbD i) false

/-- R277. -/
def rowOpcode : Zci → BitVec 4
  | .act => 1 | .pre => 2 | .preab => 3 | .refpb => 4 | .refab => 5 | .trf => 6 | .mrw => 7 | .mrr => 8 | .tmp => 9
  | .pde => 0xA | .pdx => 0xB | .sre => 0xC | .srx => 0xD
  | .rd => 0 | .rda => 0 | .wr => 0 | .wra => 0

/-- R276, R277: the fields that each command uses; unused fields are 0. -/
def rowFrame (op : Zci) (l : Loc) (addr : BitVec 8) (data : BitVec 8) : BitVec 40 :=
  let r := rowOpcode op
  let none := op == .pde || op == .pdx || op == .sre || op == .srx || r == 0
  let sid : BitVec 2 := if none then 0 else l.sid
  let pc : BitVec 1 := if none || op == .mrw then 0 else l.pc
  let bank := op == .act || op == .pre || op == .refpb || op == .trf
  let row : BitVec 14 := if op == .act || op == .trf then l.row
    else if op == .mrw || op == .mrr then addr.setWidth 14 else 0
  let body : BitVec 39 := r ++ sid ++ pc ++ (if bank then l.bg else 0) ++ (if bank then l.ba else 0) ++ row
    ++ (0 : BitVec 6) ++ (if op == .mrw then data else 0)
  bit1 (parity body) ++ body

/-- R278. -/
def colFrame (op : Zci) (l : Loc) : BitVec 32 :=
  let cop : Option (BitVec 2) := match op with
    | .rd => some 0 | .rda => some 1 | .wr => some 2 | .wra => some 3
    | .act => none | .pre => none | .preab => none | .refpb => none | .refab => none | .trf => none | .mrw => none
    | .mrr => none | .tmp => none | .pde => none | .pdx => none | .sre => none | .srx => none
  match cop with
  | none => 0
  | some c =>
    let body : BitVec 31 := (1 : BitVec 1) ++ c ++ l.sid ++ l.pc ++ l.bg ++ l.ba ++ l.col ++ (0 : BitVec 17)
    bit1 (parity body) ++ body

/-- R280: the value that an MRR or TMP burst carries; none when the read has failed. -/
def burstValue (burst : BitVec 512) : Option (BitVec 8) :=
  let pair := fun (i : Nat) => (burst.extractLsb' (16 * i) 8, burst.extractLsb' (16 * i + 8) 8)
  let good := (List.range 32).filterMap fun i => let p := pair i; if p.2 = ~~~p.1 then some p.1 else none
  good.find? fun v => decide (24 ≤ good.countP (· == v))

/-! ## The Reed-Solomon code (R215, R216) -/

/-- Multiplication by alpha in GF(2^8) with polynomial 0x11D (R215). -/
def gfDouble (a : Nat) : Nat := if 128 ≤ a then (2 * a) ^^^ 0x11D else 2 * a

def gfMulAux (a b : Nat) : Nat → Nat
  | 0 => 0
  | n + 1 => (if b % 2 = 1 then a else 0) ^^^ gfMulAux (gfDouble a) (b / 2) n
def gfMul (a b : Nat) : Nat := gfMulAux a b 8

def gfPow : Nat → Nat
  | 0 => 1
  | n + 1 => gfDouble (gfPow n)

/-- Number of check symbols: 2t. -/
def rsChecks (twin : Bool) : Nat := if twin then 16 else 8
/-- Length of a codeword. -/
def rsLen (twin : Bool) : Nat := if twin then 144 else 72

/-- g(x) without its leading 1, highest coefficient first (R215). -/
def rsGen : Nat → List Nat
  | 0 => []
  | k + 1 =>
    let g := rsGen k
    List.zipWith (· ^^^ ·) (g ++ [0]) ((gfPow k) :: g.map (gfMul (gfPow k)))

/-- One division step of the systematic encoder: the remainder after one more data symbol. -/
def rsStep (gen : List Nat) (r : List Nat) (d : Nat) : List Nat :=
  let f := d ^^^ r.headD 0
  List.zipWith (· ^^^ ·) (r.tail ++ [0]) (gen.map (gfMul f))

/-- R215: the check symbols of a line's data symbols, check symbol 0 first. -/
def rsCheck (twin : Bool) (data : List Nat) : List Nat :=
  data.foldl (rsStep (rsGen (rsChecks twin))) (List.replicate (rsChecks twin) 0)

/-- Syndrome i of an error pattern: the codeword part contributes nothing. -/
def rsSyndrome (twin : Bool) (errs : List SymErr) (i : Nat) : Nat :=
  errs.foldl (fun a e => a ^^^ gfMul e.xor.toNat (gfPow ((i * (rsLen twin - 1 - e.pos)) % 255))) 0

/-- R219 class 1: every syndrome is zero. -/
def rsSyndromesZero (twin : Bool) (errs : List SymErr) : Bool :=
  (List.range (rsChecks twin)).all fun i => rsSyndrome twin errs i == 0

/-- R216: the logical lane (DQ0 to DQ31, CB0 to CB3 as 32 to 35) of a symbol position, and whether it lies in the
follower. -/
def symLane (twin : Bool) (pos : Nat) : Bool × Nat :=
  if twin then
    if pos < 64 then (false, pos / 2) else if pos < 128 then (true, (pos - 64) / 2)
    else if pos < 136 then (false, 32 + (pos - 128) / 2) else (true, 32 + (pos - 136) / 2)
  else if pos < 64 then (false, pos / 2) else (false, 32 + (pos - 64) / 2)

/-- R216: the beat of the lane that carries bit `i` of the symbol at a position: even positions beats 0 to 7, odd ones 8
to 15. -/
def symBeat (pos i : Nat) : Nat := 8 * (pos % 2) + i

/-- Byte of the line that a data symbol is; none for a check symbol. -/
def symByte (twin : Bool) (pos : Nat) : Option Nat :=
  if pos < (if twin then 128 else 64) then some pos else none

end Sys2Proof.Machine
end

