-- ==== Sys2Proof/Machine/Die.lean ====
section
/-! DEFINITION. The mode registers of a core die (R281), as the identity reads found them and as MRWs leave them, what the
die's identity says (R100, R120), and its parity errors (R279). -/

namespace Sys2Proof.Machine

/-- R281: value i of the table *Timing rules* stands at 0x10 + 2i; the identity registers end at 0x57. -/
def dieRuleAddr (i : Nat) : Nat := 0x10 + 2 * i

/-- R281: addresses that only read. -/
def dieRo (a : Nat) : Bool := a == 0 || a == 1 || (decide (0x10 ≤ a) && decide (a < 0x4A)) || (decide (0x50 ≤ a) && decide (a < 0x58))

/-- R281: the bits of a writable register that exist; 0 at an address that has none. -/
def dieRwMask (a : Nat) : BitVec 8 :=
  if 0x60 ≤ a ∧ a < 0x64 then 0xBF
  else if a = 0x64 ∨ a = 0x65 then 0x9F
  else if a = 0x68 ∨ a = 0x6C ∨ a = 0x78 then 3
  else if 0x70 ≤ a ∧ a < 0x78 then 0xFF
  else 0

def regGet (l : List (Nat × BitVec 8)) (a : Nat) : BitVec 8 :=
  match l.find? (·.1 == a) with
  | some x => x.2
  | none => 0
def regPut (l : List (Nat × BitVec 8)) (a : Nat) (v : BitVec 8) : List (Nat × BitVec 8) := l.filter (·.1 != a) ++ [(a, v)]

/-- R281: what the die returns for a read of an address; a reserved one reads 0. -/
def Die.read (d : Die) (a : Nat) : BitVec 8 :=
  if dieRo a then regGet d.ro a
  else if a = 0x7C then d.parity
  else regGet d.mr a &&& dieRwMask a

/-- R282: the die is in command loopback and executes nothing but an MRW to 0x78. -/
def Die.looping (d : Die) : Bool := regGet d.mr 0x78 == 3

/-- R281, R282: an MRW at `t`: reserved addresses and read-only ones ignore it, 0x7C is cleared, 0b11 is no repair mode. -/
def Die.put (d : Die) (t : Nat) (a : Nat) (v : BitVec 8) : Die :=
  if d.looping && a != 0x78 then d
  else if a = 0x7C then { d with parity := 0 }
  else if dieRwMask a = 0 ∨ (a = 0x6C ∧ v &&& 3 = 3) then d
  else { d with mr := regPut d.mr a (v &&& dieRwMask a), loopAt := if a = 0x78 && !d.looping then t else d.loopAt }

/-- R282, R284: ZRST_n has been low: the mode registers are reset but for those that only read, and the die comes up in
command loopback at `t`. -/
def Die.zreset (d : Die) (t : Nat) : Die := { ro := d.ro, mr := [(0x78, 3)], parity := d.parity, loopAt := t }

/-- R282: what the die does with the bursts of column commands: 0 the array, 1 the read pattern, 2 the write buffer, 3 command
loopback. -/
def Die.trainMode (d : Die) : Nat := (regGet d.mr 0x78).toNat % 4

/-- R272, R286: the physical lane of a group that carries a logical lane: the spare in service for it, or its own. -/
def LaneGroup.physLane (g : LaneGroup) (lane : Nat) : Nat :=
  match (List.finRange 2).find? fun k => (g.spares.get k).en && (g.spares.get k).lane.toNat == lane with
  | some k => 36 + k.val
  | none => lane

/-- R282: the read pattern on physical lane i of the 38, spares included: pattern bytes 2j and 2j + 1, j = i mod 4; bit n of the
first in beat n, of the second in beat 8 + n. -/
def Die.laneByte (d : Die) (i : Nat) (second : Bool) : BitVec 8 := regGet d.mr (0x70 + 2 * (i % 4) + if second then 1 else 0)
def Die.patternPin (d : Die) (i : Fin 38) (beat : Fin 16) : Bool :=
  (d.laneByte i.val (decide (8 ≤ beat.val))).getLsbD (beat.val % 8)

/-- R216, R282: symbol `sym` of the word that the read pattern makes: symbols 2l and 2l + 1 come from the physical lane that
carries logical lane l. -/
def Die.patternByte (d : Die) (g : LaneGroup) (sym : Nat) : BitVec 8 := d.laneByte (g.physLane (sym / 2)) (sym % 2 == 1)
def Die.patternLine (d : Die) (g : LaneGroup) : Line :=
  (List.range 64).foldl (fun (l : Line) k => l ||| (((d.patternByte g k).setWidth 512) <<< (8 * k))) 0

/-- R280, R281: the burst in which the die returns a register. -/
def Die.answer (d : Die) (a : Nat) : BitVec 512 :=
  let v := d.read a
  (List.range 32).foldl (fun (w : BitVec 512) j =>
    w ||| ((v.setWidth 512) <<< (16 * j)) ||| (((~~~v).setWidth 512) <<< (16 * j + 8))) 0

/-- R279: the die finds a parity error. -/
def Die.parityError (d : Die) : Die :=
  { d with parity := 0x80 ||| BitVec.ofNat 8 (min 127 ((d.parity &&& 0x7F).toNat + 1)) }

/-! ## Identity (R100, R117, R120, R281) -/

def Die.two (d : Die) (a : Nat) : Nat := (regGet d.ro a).toNat + 256 * (regGet d.ro (a + 1)).toNat
def Die.rule (d : Die) (i : Nat) : Nat := d.two (dieRuleAddr i)
def Die.density (d : Die) : Nat := (regGet d.ro 0).toNat % 16
def Die.caps (d : Die) : BitVec 8 := regGet d.ro 1
def Die.tSPPR (d : Die) : Nat := d.two 0x46
def Die.tHPPR (d : Die) : Nat := d.two 0x48

/-- Every identity register has been read. -/
def Die.known (d : Die) : Bool := (List.range 0x58).all fun a => !dieRo a || d.ro.any (·.1 == a)

/-- R117: legal ranges in CK (tREFW in us). -/
def ruleRange : List (Nat × Nat) :=
  [(16, 60), (16, 60), (32, 120), (48, 180), (4, 16), (4, 32), (16, 80), (4, 8), (4, 16), (4, 12), (24, 60), (8, 32), (2, 8),
   (3, 16), (8, 32), (16, 80), (4, 20), (400, 1200), (180, 600), (120, 400), (8, 32), (16, 64), (1000, 8000), (8, 40),
   (400, 1400), (3900, 15600), (16000, 64000)]

/-- R120: the first rule whose value is out of range. -/
def Die.badRule (d : Die) : Option Nat :=
  (List.range 27).find? fun i =>
    let x := ruleRange.getD i (0, 0)
    decide (d.rule i < x.1) || decide (x.2 < d.rule i)

/-- R100, R120: the die can be used: its identity could be read, density and timing values are legal. -/
def Die.ok (d : Die) : Bool := d.known && decide (d.density < 3) && d.badRule.isNone

/-- The place of a bank group's repair resources. -/
def repairAddr (l : Loc) : Nat := 0x50 + 4 * l.pc.toNat + l.bg.toNat

/-- R281: repairs left in the bank group of a place, none of a kind that the die does not support. -/
def Die.left (d : Die) (hard : Bool) (l : Loc) : Nat :=
  let v := regGet d.ro (repairAddr l)
  if hard then (if d.caps.getLsbD 3 && decide (d.tHPPR ≤ 250) then v.toNat % 16 else 0)
  else if d.caps.getLsbD 2 && decide (d.tSPPR ≤ 2000) then v.toNat / 16 else 0

/-- R283: a repair takes one of its kind. -/
def Die.spend (d : Die) (hard : Bool) (l : Loc) : Die :=
  let a := repairAddr l
  { d with ro := regPut d.ro a (regGet d.ro a - if hard then 1 else 16) }

/-- R280, R287: the identity registers as the reads of T3 return them; one whose read fails is not known (log entry 56,
DESIGN CHOICE). -/
def Die.identify (d : Die) (bursts : List (Nat × BitVec 512)) : Die :=
  { d with ro := (List.range 0x58).filterMap fun a =>
      if dieRo a then
        match bursts.find? (·.1 == a) with
        | none => none
        | some x => (burstValue x.2).map fun v => (a, v)
      else none }

end Sys2Proof.Machine
end

