-- ==== Sys2Proof/Machine/Flags.lean ====
section
/-! DEFINITION. Status: the timing values in use, the levels that the block's logic reads, and the words that reads of
the host-visible registers return (every register of the control space that the chapters list). -/

namespace Sys2Proof.Machine

/-! ## Timing values (R117, R118): rounded up to whole CC -/

/-- Value i of the table *Timing rules*, in CK (tREFW in us). -/
def Timing.ck (t : Timing) (i : Fin 27) : Nat := t.v.get i
def Timing.cc (t : Timing) (i : Fin 27) : Nat := (t.ck i + 1) / 2

def Timing.tRCD (t : Timing) : Nat := t.cc 0
def Timing.tRP (t : Timing) : Nat := t.cc 1
def Timing.tRAS (t : Timing) : Nat := t.cc 2
/-- R118: the larger of the reported tRC and tRAS + tRP. -/
def Timing.tRC (t : Timing) : Nat := (max (t.ck 3) (t.ck 2 + t.ck 1) + 1) / 2
/-- The same in CK (R268, R376). -/
def Timing.tRCck (t : Timing) : Nat := max (t.ck 3) (t.ck 2 + t.ck 1)
def Timing.tRRDS (t : Timing) : Nat := t.cc 4
def Timing.tRRDL (t : Timing) : Nat := t.cc 5
def Timing.tFAW (t : Timing) : Nat := t.cc 6
def Timing.tCCDS (t : Timing) : Nat := t.cc 7
def Timing.tCCDL (t : Timing) : Nat := t.cc 8
def Timing.tCCDR (t : Timing) : Nat := t.cc 9
def Timing.rl (t : Timing) : Nat := t.cc 10
def Timing.wl (t : Timing) : Nat := t.cc 11
def Timing.tRTW (t : Timing) : Nat := t.cc 12
def Timing.tWTRS (t : Timing) : Nat := t.cc 13
def Timing.tWTRL (t : Timing) : Nat := t.cc 14
def Timing.tWR (t : Timing) : Nat := t.cc 15
def Timing.tRTP (t : Timing) : Nat := t.cc 16
def Timing.tRFCab (t : Timing) : Nat := t.cc 17
def Timing.tRFCpb (t : Timing) : Nat := t.cc 18
def Timing.tTRF (t : Timing) : Nat := t.cc 19
def Timing.tMRD (t : Timing) : Nat := t.cc 20
def Timing.tMOD (t : Timing) : Nat := t.cc 21
def Timing.tTMP (t : Timing) : Nat := t.cc 22
def Timing.tXP (t : Timing) : Nat := t.cc 23
def Timing.tXS (t : Timing) : Nat := t.cc 24
/-- R248: tREFI and tREFW divided by the multiplier, rounded down to whole CC (ns). -/
def Timing.tREFIeff (t : Timing) (m : Nat) : Nat := t.ck 25 / (2 * m)
def Timing.tREFWeff (t : Timing) (m : Nat) : Nat := t.ck 26 * 1000 / m

/-- R174: the guard that the decisions of a CC use: a write in it applies from the next. -/
def Gates.guardAt (g : Gates) (now : Nat) : BitVec 10 :=
  match g.guardWas with
  | some (t, v) => if t = now then v else g.guard
  | none => g.guard

/-- R146: a joined pair uses the larger of the two channels' values. -/
def State.tim (s : State) (n : Ch) : Timing :=
  let a := (s.chan.get n).tim
  if s.map.isJoined n then
    let b := (s.chan.get (partner n)).tim
    { v := Vector.ofFn fun i => max (a.v.get i) (b.v.get i) }
  else a

/-- R146: every bank of the follower has the state of the leader's. -/
def State.mirror (s : State) (n : Ch) : State :=
  if s.map.isJoined n then
    let b := (s.chan.get n).st.banks
    s.updChan (partner n) fun c => c.updSt fun x => { x with banks := b }
  else s

/-- A change of the banks of engine n and, in a joined pair, of its follower's. -/
def State.updBanks (s : State) (n : Ch) (f : Chan → Chan) : State := (s.updChan n f).mirror n

/-- R174: the effective guard band in ns, of the guard and the timing values in force. -/
def guardBand (guard : Nat) (t : Timing) : Nat := max guard ((t.ck 0 + max (t.ck 10) (t.ck 11) + 4 + 1) / 2)
/-- R174: the timing values that the guard of CC `now` rests on: a write in it applies from the next. -/
def Chan.timAt (c : Chan) (now : Nat) : Timing :=
  match c.timWas with
  | some (t, v) => if t = now then v else c.tim
  | none => c.tim

def State.guardEff (s : State) (n : Ch) : Nat :=
  let tm := (s.map.reach n).map fun k => ((s.chan.get k).timAt s.now)
  let big := fun (i : Fin 27) => (tm.map fun t => t.v.get i).foldl max 0
  guardBand ((s.chan.get n).gate.guardAt s.now).toNat ⟨Vector.ofFn big⟩

/-! ## Levels of a channel engine -/

/-- R127, R153: the configuration that the decisions of a CC use where a write in it applies from the next. -/
def Chan.cfgAt (c : Chan) (now : Nat) : ChanCfg :=
  match c.cfgWas with
  | some (t, f) => if t = now then f else c.cfg
  | none => c.cfg

/-- R127. -/
def Chan.occ (c : Chan) (cls : BitVec 4) : Nat := c.st.tt.countP (·.cls == cls)
/-- R465, R468: a column command issued at `t` may not have been executed: a command error stands that reaches back to it; in an engine
recovery, every one. Its data are not used, and its write does not end. -/
def Chan.unsure (c : Chan) (t : Nat) : Bool :=
  match c.st.recov with
  | .none => false
  | .caerr f | .caerrWait f _ => decide (f ≤ t + 12)
  | .engine _ => true

/-- R473: a module has yet to receive this index, so that it names no new entry before (log entry 75, DEDUCED). -/
def Chan.noticed (c : Chan) (i : EntryIx) : Bool := c.st.notices.any (·.2 == i)
def Chan.ttFree (c : Chan) : Nat := 256 - c.st.tt.length - (List.finRange 256).countP c.noticed

/-- The mask that covers the whole line. -/
def fullMask (twin : Bool) : BitVec 128 := if twin then BitVec.allOnes 128 else BitVec.ofNat 128 (2 ^ 64 - 1)

/-- R132, R136, R147: the entry stores a whole line with a WR. -/
def Entry.isWrite (e : Entry) : Bool :=
  match e.kind with
  | .wr64 | .wrp | .mwr => e.mask == fullMask e.twin
  | .rd64 | .rd128 | .ldr | .hint | .stc | .amo | .mrd | .fenceW | .fenceAll | .cfgRd | .cfgWr | .srEnter => false

/-- R136: a WRP whose mask is all zeros. -/
def Entry.isVoid (e : Entry) : Bool := e.kind == .wrp && e.mask == 0

/-- R134, R147: the entry works on a line in the line buffer. -/
def Entry.usesLb (e : Entry) : Bool :=
  match e.kind with
  | .amo | .stc => true
  | .wr64 | .wrp => !e.isWrite && !e.isVoid
  | .rd64 | .rd128 | .ldr | .hint | .mwr | .mrd | .fenceW | .fenceAll | .cfgRd | .cfgWr | .srEnter => false

/-- R137: a slot is in use from allocation until its entry leaves LB. -/
def Chan.lbBusy (c : Chan) (i : Fin 16) : Bool :=
  c.st.tt.any fun e => e.lb.toNat == i.val && (e.st == .lb || (e.st == .colrd && e.usesLb))

/-- R127: a class may take a free entry. -/
def Chan.canTake (c : Chan) (now : Nat) (cls : BitVec 4) : Bool :=
  let f := c.cfgAt now
  let occ := c.occ cls
  let unmet := ((List.finRange 16).map fun d =>
    if d.val = cls.toNat then 0 else (f.rsvMin.get d).toNat - c.occ (BitVec.ofNat 4 d.val)).sum
  decide (occ < (f.rsvMax.get (Fin.ofNat 16 cls.toNat)).toNat) && decide (0 < c.ttFree) &&
    (decide (occ < (f.rsvMin.get (Fin.ofNat 16 cls.toNat)).toNat) || decide (unmet < c.ttFree))

/-- Index of the last entry of a list. -/
def GateList.last (l : GateList) : Fin 16 := Fin.ofNat 16 (l.len - 1)

/-- R173: the entry in force at a place of a cycle, from entry `i` on, which starts at `at_`. -/
def GateList.entryFrom (l : GateList) (pos at_ : Nat) (i : Nat) : Nat → Fin 16
  | 0 => l.last
  | k + 1 =>
    let d := (l.dur.get (Fin.ofNat 16 i)).toNat
    if pos < at_ + d then Fin.ofNat 16 i else l.entryFrom pos (at_ + d) (i + 1) k

def GateList.entryAt (l : GateList) (pos : Nat) : Fin 16 := l.entryFrom pos 0 0 (l.len - 1)

/-- Place of a time in the cycles of a list. -/
def GateList.pos (l : GateList) (tb : Nat) : Nat := (tb + l.cycle - l.phase % l.cycle) % l.cycle
/-- R179: a list comes into force: at a start of its cycle with its first entry, else with its last entry's mask. -/
def Gates.switch (g : Gates) (l : GateList) (tb : Nat) : Gates :=
  if l.en && l.pos tb == 0 then
    { g with force := l, commit := none, started := true, cycleAt := tb, entry := l.entryAt 0 }
  else { g with force := l, commit := none, started := false, cycleAt := tb, entry := l.last }

/-- R179: a list that a commit gave to gates with no list enabled is in force from the next CC on. -/
def Gates.settle (g : Gates) (now : Nat) : Gates :=
  match g.commit with
  | some l => if !g.force.en && decide (g.commitAt.1 < now) then g.switch l (g.commitAt.2 + 1) else g
  | none => g

/-- R173, R176: the classes open now. -/
def Gates.openMask (g : Gates) : BitVec 16 := if g.force.en then g.force.mask.get g.entry else 0xFFFF
/-- R180: in a joined pair the leader's list applies, which is the serving engine's own. -/
def Chan.isOpen (c : Chan) (cls : BitVec 4) : Bool := c.gate.openMask.getLsbD cls.toNat

/-- R141, R298: the pseudo-channel is closing or offline. -/
def Chan.offline (c : Chan) (p : Pc) : Bool := (c.pc.get p).pause != .none

def mulCode (m : Nat) : BitVec 2 := if m = 1 then 0 else if m = 2 then 1 else 2
def codeMul (c : BitVec 2) : Nat := if c = 0 then 1 else if c = 1 then 2 else 4

/-- R248, R250: the multiplier in force for a SID; a follower's floor is not applied (R271). -/
def State.mult (s : State) (n : Ch) (sid : SidIx) : Nat :=
  let own := max ((s.chan.get n).rf.mTemp.get sid) (codeMul (s.chan.get (s.map.server n)).cfg.rateMin)
  if s.map.isJoined n then max own ((s.chan.get (partner n)).rf.mTemp.get sid) else own

/-- R231: the remap entry of a line, when one is in use. -/
def Chan.remapOf (c : Chan) (l : Loc) : Option (Fin 16) :=
  (List.finRange 16).find? fun i => (c.remap.get i).st != .free && (c.remap.get i).loc == l

/-- R237: hold is 1 and no host entry remains. -/
def Chan.holdIdle (c : Chan) : Bool := c.cfg.hold && c.st.tt.all (·.maint)

/-- R218: lanes marked in a pseudo-channel. -/
def countBits {w : Nat} (v : BitVec w) : Nat := (List.range w).countP v.getLsbD
def LaneGroup.nmark (g : LaneGroup) : Nat := countBits g.marks

/-- R288, R305: lanes without a spare: marked, and carried by none; at most 3 are shown. -/
def LaneGroup.openLanes (g : LaneGroup) : Nat :=
  min 3 ((List.finRange 36).countP fun i =>
    g.marks.getLsbD i.val && !g.spares.toList.any fun x => x.en && x.lane.toNat == i.val)

/-- R261: valid tracker entries, and the sweep entries of a channel. -/
def Tracker.valid (t : Tracker) (e : TrkEnt) : Bool := !e.sweep && decide (t.s.toNat < e.v.toNat)
def Chan.sweepOwed (c : Chan) : Nat := (c.rf.trk.toList.map fun t => t.ents.countP (·.sweep)).sum

/-! ## Levels of a module -/

/-- The request's own 64-byte lines (R192: an RD128 touches two). -/
def Rq.touches (r : Rq) (line : Nat) : Bool :=
  r.addr.toNat / 64 == line || (r.kind == .rd128 && r.addr.toNat / 64 + 1 == line)

/-- R192: held behind an older write of the same port to a line it touches (reads, atomics), or behind an older request
in the ingress queue (writes). HINT is never held. -/
def Hlm.sameLineHeld (h : Hlm) (r : Rq) : Bool :=
  match r.kind with
  | .hint => false
  | .wr64 | .wrp =>
    h.ingress.any fun o => o.kind != .hint && o.port == r.port && decide (o.seq < r.seq) && o.touches (r.addr.toNat / 64)
  | .rd64 | .rd128 | .ldr | .stc | .amo | .mrd | .mwr | .fenceW | .fenceAll | .cfgRd | .cfgWr | .srEnter =>
    h.posted.any fun o => o.port == r.port && decide (o.seq < r.seq) && r.touches (o.addr.toNat / 64)

/-- R198: a drain of a port is in progress. -/
def Hlm.draining (h : Hlm) (port : BitVec 4) : Bool :=
  (h.fences.any fun f => f.port == port && h.postedBefore port f.seq) ||
  (h.cfgq.any fun c => c.port == port && !c.started && h.postedBefore port c.seq) ||
  (h.errs.any fun e => e.port == port && h.postedBefore port e.seq)

/-- R214: requests of a port held by a fence or by R192. -/
def Hlm.heldCount (h : Hlm) (port : BitVec 4) : Nat :=
  (h.ingress ++ h.posted).countP (fun r => r.port == port && (r.held || h.sameLineHeld r)) +
  h.cfgq.countP (fun c => c.port == port && c.held)

def LinkState.code : LinkState → BitVec 3
  | .down => 0 | .training => 1 | .active => 2 | .parked => 3 | .reset => 4 | .unusable => 5

/-! ## Words of registers -/

def w32 (n : Nat) : Word := BitVec.ofNat 32 n
def b2n (b : Bool) : Nat := if b then 1 else 0

/-- Place a field at a bit. -/
def fld (lo : Nat) (v : Nat) : Nat := v * 2 ^ lo

/-- Sixty-four flags as a 64-bit mask. -/
def chMask (p : Ch → Bool) : BitVec 64 := BitVec.ofNat 64 ((allCh.map fun i => if p i then 2 ^ i.val else 0).sum)
def lo32 (v : BitVec 64) : Word := v.extractLsb' 0 32
def hi32 (v : BitVec 64) : Word := v.extractLsb' 32 32

def locWord (l : Loc) : Nat :=
  fld 30 l.pc.toNat + fld 28 l.sid.toNat + fld 26 l.bg.toNat + fld 24 l.ba.toNat + fld 10 l.row.toNat + fld 6 l.col.toNat

/-- R442: the region of a fuse word. -/
def fuseRegion (a : Nat) : Nat :=
  if a < 64 then 0 else if a < 194 then 1 else if a < 706 then 2 else if a < 738 then 3 else if a < 775 then 4
  else if a < 784 then 5 else if a < 1041 then 6 else 7

/-- R442: first word and number of words of a region. -/
def fuseBase (r : Nat) : Nat := [0, 64, 194, 706, 738, 775, 784, 1041].getD r 0
def fuseWords (r : Nat) : Nat := [64, 130, 512, 32, 37, 9, 257, 8].getD r 0

def Fuses.status (f : Fuses) : Word :=
  let marg := (List.range 8).map fun r => if f.marginal.any (fun a => fuseRegion a == r) then 2 ^ r else 0
  w32 (fld 31 (b2n f.alarm) + fld 30 (b2n f.factory) + fld 16 f.locked.toNat + fld 8 f.crcBad.toNat + marg.sum)

def FwState.code : FwState → Nat
  | .rom => 0 | .loader => 1 | .ready => 2 | .restarting => 3
def Fw.status (f : Fw) : Word := w32 (fld 30 f.st.code + f.restarts.toNat)

def PwrState.code : PwrState → Nat
  | .imago => 0 | .toPupa => 1 | .pupa => 2 | .toChrysalis => 3 | .chrysalis => 4 | .chrysMgmt => 5 | .waking => 6
def Power.status (p : Power) : Word :=
  w32 (fld 29 p.state.code + fld 28 (b2n p.srEntered) + fld 24 p.lastWake.toNat + fld 19 p.wakeHlm.toNat
    + fld 12 p.lastAbort.toNat)

/-- Rational rounded down, within a range of naturals. -/
def ratFloorNat (q : Rat) (top : Nat) : Nat := min top q.floor.toNat

/-- R410 to R430, R338: GLB_THERM_STATUS. -/
def Thermal.status (t : Thermal) : Word :=
  w32 (fld 29 t.zone.toNat + fld 28 (b2n (decide (t.budget ≤ 0))) + fld 27 (b2n t.floorBind) + fld 16 t.tHot.toNat
    + fld 8 t.tPred.toNat + t.cap.toNat)

def SilkLog.status (l : SilkLog) : Word := l.dropped ++ l.truncated
/-- R426: unread words of both banks. -/
def SilkLog.unread (l : SilkLog) : Nat := l.drain.length + l.fill.length
def SilkLog.level (l : SilkLog) : Word :=
  w32 (fld 28 l.flushes.toNat + fld 27 (b2n !l.pops.isEmpty) + fld 26 (b2n l.openPkt.isSome) + fld 12 l.fill.length
    + l.drain.length)

def EvSrc.route (e : EvSrc) : Word :=
  w32 (fld 31 (b2n e.msgEn) + fld 30 (b2n e.ibiEn) + fld 27 e.holdoff.toNat + fld 20 e.ibiTgt.val + fld 8 e.module.val
    + e.port.toNat)
/-- R414: status of a source. -/
def EvSrc.pend (e : EvSrc) : Bool := e.occ != e.ack

def evPendWord (s : State) (i : Nat) : Word :=
  w32 (((List.finRange 360).map fun e =>
    if e.val / 32 = i && (s.mgmt.ev.get e).pend then 2 ^ (e.val % 32) else 0).sum)

/-- R345 to R360. -/
def Mailbox.status (b : Mailbox) : Word :=
  w32 (fld 31 (b2n b.inFull) + fld 30 (b2n b.outFull) + fld 29 (b2n b.winFw) + fld 28 (b2n b.owner.isSome)
    + fld 11 (b.owner.getD 0).toNat + b.inOvf.toNat)

/-- R356: the value that a read of a held semaphore returns. -/
def semWord : Option Ident → Word
  | none => 0
  | some w => w32 (0x800 + w.toNat)

def Map.cfgWord (m : Map) : Word := w32 (fld 4 (b2n m.xorBank) + fld 3 (b2n m.xorCh) + m.gran.toNat)
def Map.statusWord (m : Map) : Word :=
  w32 (fld 31 (b2n m.frozen) + fld 30 (b2n m.xorActive) + fld 16 (countBits m.hole) + fld 8 m.nslot
    + fld 4 ((m.nsid - 1) % 4) + fld 2 m.density.toNat)
/-- R113: bits stay 0 while a pair's transition is in progress. -/
def Map.joinedWord (m : Map) : Word := m.joined &&& ~~~m.trans

/-! ## The ZCI pins (R272, R275, R322): what the PHY drives, or the clamps of a quad that is off -/

/-- R275: the frames that a channel's PHY drives in CC `t`: those of the command issued in it, else the NOP frame. -/
def Chan.rowFrameAt (c : Chan) (t : Nat) : BitVec 40 :=
  match c.st.hist.find? fun p => p.own && p.at_ == t && rowOpcode p.op != 0 with
  | some p => rowFrame p.op p.loc p.addr p.data
  | none => 0
def Chan.colFrameAt (c : Chan) (t : Nat) : BitVec 32 :=
  match c.st.hist.find? fun p => p.own && p.at_ == t && rowOpcode p.op == 0 with
  | some p => colFrame p.op p.loc
  | none => 0

/-- R324: the sentinel channel of a die position. -/
def Map.sentinel (m : Map) (k : Nat) : Option Ch :=
  ((List.range 16).map fun i => (Fin.ofNat 64 (16 * k + i) : Ch)).find? fun n => m.mapped.getLsbD n.val

/-- R322, R324, R326: the ZCI command and clock drivers of a channel have power: its quad is on, or a visit has switched on the
sense island that holds those of the sentinel channel; in a mode-change visit those of every mapped channel, until the last command
of the visit has gone out. -/
def State.pinsOn (s : State) (n : Ch) : Bool :=
  s.quadOn n || (s.pwr.eye.inVisit && s.map.sentinel (n.val / 16) == some n)
    || (s.chan.get n).st.hist.any fun p => decide (s.now ≤ p.at_)

/-- R275: the frame on the row bus in this CC; the NOP frame where no command was issued, or the quad is off. -/
def State.rowBus (s : State) (n : Ch) : BitVec 40 := if s.pinsOn n then (s.chan.get n).rowFrameAt s.now else 0
def State.colBus (s : State) (n : Ch) : BitVec 32 := if s.pinsOn n then (s.chan.get n).colFrameAt s.now else 0

/-- R275: bit k of a frame is driven on lane k mod 10 (row) or k mod 8 (column), in beat k div 10 or k div 8. -/
def State.rowPin (s : State) (n : Ch) (lane : Fin 10) (beat : Fin 4) : Bool := (s.rowBus n).getLsbD (10 * beat.val + lane.val)
def State.colPin (s : State) (n : Ch) (lane : Fin 8) (beat : Fin 4) : Bool := (s.colBus n).getLsbD (8 * beat.val + lane.val)

/-- R282: what a CSP carries: the bit of the command lane that it replaces; low where it replaces none. -/
def Chan.cspBit (c : Chan) (t : Nat) (i : Fin 2) (beat : Nat) : Bool :=
  let x := c.csp.get i
  let l := x.lane.toNat
  x.en && (if l < 10 then (c.rowFrameAt t).getLsbD (10 * beat + l) else (c.colFrameAt t).getLsbD (8 * beat + (l - 10)))

/-- R282: lane `i` of PC0's group in data beat `b` of this CC, from the SID0 die in command loopback: the frames of the CC that
lies RL before; two data beats for each command beat. -/
def State.loopPin (s : State) (n : Ch) (i : Fin 38) (b : Fin 8) : Bool :=
  let c := s.chan.get n
  let d := c.dies.get 0
  let rl := (s.tim n).rl
  let u := s.now - rl
  let beat := b.val / 2
  if !d.looping || decide (s.now < d.loopAt + 1 + rl) then false
  else if i.val < 10 then (c.rowFrameAt u).getLsbD (10 * beat + i.val)
  else if i.val < 18 then (c.colFrameAt u).getLsbD (8 * beat + (i.val - 10))
  else if i.val < 20 then c.cspBit u (Fin.ofNat 2 (i.val - 18)) beat
  else false

/-- R322: the core dies stay out of reset while their quad is off. -/
def State.zrstPin (s : State) (n : Ch) : Bool := !s.quadOn n || (s.chan.get n).zrstN

/-- R322: what a clock pair (CK, WCK) is held at while the quad is off, true then complement; none while it may run. -/
def State.clockHeld (s : State) (n : Ch) : Option (Bool × Bool) := if s.pinsOn n then none else some (false, true)

/-- R322: the drivers of DQ, CB and SP are off: high impedance. -/
def State.dataHighZ (s : State) (n : Ch) : Bool := !s.quadOn n

/-! ## Values of the firmware-owned registers (R154, R247, R271, R307, R339, R361, R411), block by block -/

def optVal (x : Option Nat) : List Nat := match x with
  | none => [0]
  | some v => [1, v]

def intVal (x : Int) : List Nat := [x.natAbs, b2n (decide (x < 0))]
def ratVal (x : Rat) : List Nat := intVal x.num ++ [x.den]

/-- R339, R361, R392, R410, R411: the global block. -/
def State.fwGlobal (s : State) : List Nat :=
  let g := s.mgmt
  let t := g.therm
  [s.map.nsid, s.map.density.toNat, s.map.mapped.toNat, s.map.hole.toNat, g.fw.st.code, b2n g.fw.started, t.cap.toNat,
   t.warn.toNat, t.throttle.toNat, t.critCap.toNat, t.floor.toNat, t.bMax.toNat, g.log.mask.toNat, b2n s.boot.stageOpen]
  ++ ratVal t.td ++ ratVal t.ts ++ ratVal t.tamb ++ [t.cLoop] ++ ratVal t.budget
  ++ g.mb.toList.flatMap (fun b => optVal (b.owner.map BitVec.toNat) ++ [b2n b.winFw, b2n b.wake])
  ++ g.i3c.toList.flatMap (fun x => [b2n x.ibiOn, x.provId.toNat] ++ optVal (x.dynAddr.map BitVec.toNat))
  ++ [g.i3cStatic.toNat, g.fw.wdtPeriod, g.fw.wdtServed] ++ t.model.toList.flatMap optVal

/-- R386, R411: the fuse controller. -/
def State.fwFuse (s : State) : List Nat :=
  let f := s.mgmt.fuse
  [b2n f.req, f.addr, b2n (s.mgmt.mb.toList.any fun b => b.cmds.any fun c => c.res == .key), s.mgmt.i3cStatic.toNat,
   s.mgmt.fw.wdtPeriod, s.mgmt.fw.wdtServed] ++ s.mgmt.i3c.toList.map (fun x => x.provId.toNat) ++ f.shadows.flatMap (fun x => [x.1, x.2.1, x.2.2.toNat]) ++ f.bootTemp.toNat :: f.marginal

/-- R310, R323, R339: the always-on block. -/
def State.fwAon (s : State) : List Nat :=
  let p := s.pwr
  [p.target.toNat, p.quiet, p.deferMax, p.seqOn.toNat] ++ p.dom.toList ++ [p.eye.period, p.eye.wakeHi.toNat]

/-- R57, R411: a module, with the trims in use. -/
def State.fwHlm (s : State) (m : Mod) : List Nat :=
  let h := s.hlm.get m
  [h.lastTry, b2n h.trainAt16, h.lanesRepaired.toNat, h.linkFw.toNat]
  ++ (List.finRange 63).flatMap fun i =>
    if 8 ≤ i.val ∧ Config.trimUnit i.val = m.val then optVal ((s.mgmt.fuse.trims.get i).map BitVec.toNat) else []

def DiePwr.code : DiePwr → Nat
  | .active => 0 | .powerDown => 1 | .selfRefresh => 2

/-- R154, R247, R271: a channel engine. -/
def State.fwChan (s : State) (n : Ch) : List Nat :=
  let c := s.chan.get n
  c.tim.v.toList ++ [s.map.nsid, s.map.density.toNat, c.st.pwr.code] ++ optVal (c.st.mrVal.map BitVec.toNat)
  ++ [b2n (s.map.joined.getLsbD (pairOf n).val), b2n (s.map.trans.getLsbD (pairOf n).val),
      (c.pc.get 0).marks.toNat, (c.pc.get 1).marks.toNat]
  ++ c.remap.toList.flatMap (fun r => [b2n (r.st == .live), b2n (r.st == .filling), b2n (r.st == .poisoned), locWord r.loc])
  ++ (match c.repair with
      | none => [0]
      | some r => [1, b2n r.hard, locWord r.loc, r.phase])
  ++ (match c.lastRepair with
      | none => [0]
      | some r => [1, b2n r.1, locWord r.2.1, b2n r.2.2, b2n c.lastFailed])
  ++ [b2n c.share, s.mgmt.scrub.start, s.mgmt.scrub.len, s.mgmt.scrub.mode.toNat, s.mgmt.scrub.pattern.toNat, s.mgmt.scrub.pace,
      b2n c.cfg.refAllBank, c.cfg.rateMin.toNat, c.cfg.thresh.toNat, c.cfg.pace.toNat]
  ++ c.rf.debt.toList.flatMap intVal

def Lane.fwVals (l : Lane) : List Nat :=
  [b2n l.samplerB, l.rxTap.toNat, l.txTap.toNat] ++ optVal (l.selSampler.map b2n) ++ optVal (l.selRx.map BitVec.toNat)
    ++ optVal (l.selTx.map BitVec.toNat)

/-- R307: a TSV PHY, with the urgent pauses that wait for it. -/
def State.fwTsv (s : State) (n : Ch) : List Nat :=
  let c := s.chan.get n
  (s.mgmt.fw.urgent.filter (·.n == n)).map (fun r => match r.pc with
    | none => 3
    | some p => p.val + 1) ++ c.train.toNat :: c.pc.toList.flatMap (fun g => g.align.toNat :: g.lanes.toList.flatMap Lane.fwVals)
  ++ c.cmdLane.toList.flatMap Lane.fwVals
  ++ c.pc.toList.flatMap (fun g => optVal (g.sel.map fun x => 64 * x.1.val + x.2.val))
  ++ optVal (c.selCmd.map fun x => 32 * x.1.val + x.2.val)
  ++ [b2n c.cfg.recalEn, c.cfg.bootMin, c.cfg.warn, c.cfg.fail, c.cfg.monThresh]

/-- Words of the global region with no side effect and no access rule of their own; none where unassigned. -/
def State.readGlobal (s : State) (o : Nat) : Option Word :=
  let g := s.mgmt
  let k := s.clk
  if o = 0 then some 0x5A13A710
  else if o = 4 then some (w32 (fld 25 64 + fld 20 20 + fld 15 24 + fld 9 32 + 360))
  else if o = 0x10 then some g.fw.status
  else if o = 0x100 then
    some (w32 (fld 31 (b2n k.pllLock) + fld 30 (b2n k.refclkOk) + fld 29 (b2n k.mgmtOsc) + fld 28 (b2n k.aonOsc)
      + fld 27 (b2n k.trims) + k.rate.toNat))
  else if o = 0x104 then some (w32 (fld 29 s.boot.last.toNat + fld 16 s.pwr.refLosses.toNat + s.boot.warmCnt.toNat))
  else if o = 0x108 then some s.pwr.lossDisc
  else if o = 0x200 then some s.map.cfgWord
  else if o = 0x204 then some s.map.statusWord
  else if o = 0x208 then some (lo32 s.map.mapped)
  else if o = 0x20C then some (hi32 s.map.mapped)
  else if o = 0x210 then some (lo32 s.map.hole)
  else if o = 0x214 then some (hi32 s.map.hole)
  else if o = 0x218 then some s.map.joinedWord
  else if o = 0x220 then some (s.map.probe.extractLsb' 0 32)
  else if o = 0x224 then some (s.map.probe.extractLsb' 32 8 |>.setWidth 32)
  else if o = 0x228 then some (s.map.decode s.map.probe).res0
  else if o = 0x22C then some (s.map.decode s.map.probe).res1
  else if o = 0x300 then some (lo32 k.timeBase)
  else if o = 0x304 then some (hi32 k.timeBase)
  else if o = 0x400 then some g.therm.status
  else if o = 0x404 then some (w32 (fld 16 g.therm.floor.toNat + ratFloorNat g.therm.budget 65535))
  else if o = 0x408 then some (w32 (fld 24 110 + fld 16 105 + fld 8 g.therm.throttle.toNat + g.therm.warn.toNat))
  else if o = 0x500 then some (w32 (fld 31 (b2n g.postAon.pend.isSome) + g.postAon.disc.toNat))
  else if o = 0x504 then some (lo32 (chMask fun n => (g.postTsv.get n).pend.isSome))
  else if o = 0x508 then some (hi32 (chMask fun n => (g.postTsv.get n).pend.isSome))
  else if 0x600 ≤ o ∧ o < 0x700 then some ((g.postTsv.get (Fin.ofNat 64 ((o - 0x600) / 4))).disc.setWidth 32)
  else if 0x800 ≤ o ∧ o < 0x980 then
    let b := g.mb.get (Fin.ofNat 24 ((o - 0x800) / 16))
    some (if o % 16 = 0 then b.inw else if o % 16 = 4 then b.out else if o % 16 = 8 then 0 else b.status)
  else if 0xC00 ≤ o ∧ o < 0xC80 then some (semWord (g.sem.get (Fin.ofNat 32 ((o - 0xC00) / 4))))
  else if o = 0xC80 then
    some (w32 (((List.finRange 32).map fun i => if (g.sem.get i).isSome then 2 ^ i.val else 0).sum))
  else if 0x1000 ≤ o ∧ o < 0x15A0 then
    let e := g.ev.get (Fin.ofNat 360 ((o - 0x1000) / 4))
    some (e.occ ++ e.ack)
  else if 0x1600 ≤ o ∧ o < 0x1BA0 then some (g.ev.get (Fin.ofNat 360 ((o - 0x1600) / 4))).route
  else if 0x1C00 ≤ o ∧ o < 0x1C30 then some (evPendWord s ((o - 0x1C00) / 4))
  else if o = 0x1C40 then some (g.evLost ++ (0 : BitVec 7) ++ g.evLostLast)
  else if o = 0x2004 then some g.log.level
  else if o = 0x2008 then some g.log.status
  else if o = 0x200C then some (g.log.levelThresh.setWidth 32)
  else if 0xF000 ≤ o ∧ o < 0x10000 then some (Config.fwRangeValue o s.fwGlobal)
  else none

/-- The always-on region (R338). -/
def State.readAon (s : State) (o : Nat) : Option Word :=
  let p := s.pwr
  if o = 0 then some p.status
  else if o = 4 then some (p.entries ++ p.aborts)
  else if o = 8 then some (p.patEn.setWidth 32)
  else if o = 0xC then some (w32 (fld 16 p.eye.visits.toNat + p.eye.widx.toNat))
  else if 0x100 ≤ o ∧ o < 0x180 then
    let e := p.eye.ring.get (Fin.ofNat 16 ((o - 0x100) / 8))
    some (if o % 8 = 0 then e.lo else e.hi)
  else if 0xF000 ≤ o then some (Config.fwRangeValue (0x10000 + o) s.fwAon)
  else none

/-- A module's registers (R98, R186). -/
def Hlm.readReg (h : Hlm) (o : Nat) : Option Word :=
  if o = 0 then some (w32 (fld 16 h.retryThresh.toNat + h.maxRate.toNat))
  else if o = 4 then
    some (w32 (fld 24 h.linkResets.toNat + fld 8 h.lanesRepaired.toNat + fld 3 (b2n h.rate16) + h.link.code.toNat))
  else if o = 8 then some h.replayCnt
  else if o = 0xC then some (w32 (fld 16 h.proto.toNat + fld 8 h.nocredit.toNat + h.tagdup.toNat))
  else if o = 0x20 then some (h.refuseThresh.setWidth 32)
  else if o = 0x24 then some h.policeCnt
  else if 0x30 ≤ o ∧ o < 0x40 then
    let j := (o - 0x30) / 4
    let b := fun (i : Nat) => h.classOvh.get (Fin.ofNat 16 (4 * j + i))
    some (b 3 ++ b 2 ++ b 1 ++ b 0)
  else none

/-- R398, R411: a module's registers, with its firmware range. -/
def State.readHlm (s : State) (m : Mod) (o : Nat) : Option Word :=
  if 0x3000 ≤ o then some (Config.fwRangeValue (0x100000 + 0x4000 * m.val + o) (s.fwHlm m)) else (s.hlm.get m).readReg o

/-- A port's registers (R186, R214). -/
def State.readPort (s : State) (k : PortK) (o : Nat) : Option Word :=
  let p := s.port.get k
  let h := s.hlm.get (portMod (BitVec.ofNat 9 k.val))
  let lp := portLocal (BitVec.ofNat 9 k.val)
  if o = 0 then some (w32 (fld 8 p.chgMode.toNat + fld 4 (b2n p.en) + p.cls.toNat))
  else if o = 4 then some (p.pend.pir ++ p.pend.cir)
  else if o = 8 then some (p.pend.cbs.setWidth 32)
  else if o = 0xC then some (p.pend.pbs.setWidth 32)
  else if o = 0x10 then some (w32 (p.tokC / 1000))
  else if o = 0x14 then some (w32 (p.tokP / 1000))
  else if o = 0x18 then some p.green
  else if o = 0x1C then some p.yellow
  else if o = 0x20 then some p.red
  else if o = 0x24 then some p.hwmLat
  else if o = 0x28 then
    some (w32 (fld 31 (b2n (h.draining lp)) + fld 30 (b2n (h.fences.any (·.port == lp)))
      + fld 16 (min 256 (h.heldCount lp)) + h.posted.countP (·.port == lp)))
  else none

def RemapSt.code : RemapSt → Nat
  | .free => 0 | .poisoned => 1 | .live => 2 | .filling => 3

/-- R148: the pair role of a channel. -/
def Map.twinRole (m : Map) (n : Ch) : Nat :=
  if m.trans.getLsbD (pairOf n).val then 3 else if m.isJoined n then (if n.val < 32 then 1 else 2) else 0

/-- R269, R270: the temperature that a SID reports: of the leader of a joined pair, the larger of the two channels' (log entry 19, DEDUCED);
128 below zero is no reading. -/
def State.dieTemp (s : State) (n : Ch) (i : SidIx) : BitVec 8 :=
  let own := (s.chan.get n).rf.temp.get i
  if s.map.isJoined n && !s.map.isFollower n then
    let other := (s.chan.get (partner n)).rf.temp.get i
    if own.toInt < other.toInt then other else own
  else own

/-- R208: a reservation is protected for 2 us. -/
def Rsv.protected (r : Rsv) (now : Nat) : Bool := r.prot && decide (now < r.at_ + 2000)

/-- R207: an LDR records its reservation. -/
def RsvEv.record (v : RsvEv) (l : List Rsv) : List Rsv :=
  let new : Rsv := { port := v.port, loc := v.loc, twin := v.twin, at_ := v.at_, prot := true }
  if l.any (·.port == v.port) ∨ l.length < 32 then l.filter (·.port != v.port) ++ [new]
  else
    match l.find? fun r => !r.protected v.at_ with
    | none => l
    | some o => l.filter (·.port != o.port) ++ [new]

/-- R200, R207 to R210: what a step leaves of the reservations that it finds; one that is not decided is taken to have good
data, or to store (an STC: where it finds its port's reservation). -/
def RsvEv.apply (v : RsvEv) (l : List Rsv) : List Rsv :=
  let l := l.map fun r => if r.port = v.port then { r with prot := false } else r
  match v.op with
  | .touch => l
  | .ldr => if v.done = some false then l else v.record l
  | .stc =>
    let hit := l.any fun r => r.port == v.port && r.loc == v.loc
    let rest := l.filter (·.port != v.port)
    if v.done.getD hit then rest.filter (·.loc != v.loc) else rest
  | .store => if v.done = some false then l else l.filter (·.loc != v.loc)
  | .scrub => l.filter fun r => r.loc != v.loc || r.protected v.at_
  | .reset => l.filter fun r => portMod r.port != portMod v.port
  | .clear => []

/-- R207: the LDR falls under step 3 or 4. -/
def RsvEv.evicts (v : RsvEv) (l : List Rsv) : Bool :=
  v.op == .ldr && v.done != some false && !l.any (·.port == v.port) && decide (32 ≤ l.length)

/-- The reservations after steps of the order. -/
def rsvAfter (l : List Rsv) (vs : List RsvEv) : List Rsv := vs.foldl (fun l v => v.apply l) l

/-- R206: the reservations of a channel. -/
def Chan.rsvNow (c : Chan) : List Rsv := rsvAfter c.st.rsv c.st.rsvEvs

/-- Registers of a channel engine (R152, R186, R214, R246, R270, R458). -/
def State.readChan (s : State) (n : Ch) (o : Nat) : Option Word :=
  let c := s.chan.get n
  let f := c.cfg
  let x := c.st
  let cnt := fun (v : Word) => if s.map.isFollower n then (0 : Word) else v
  if o = 0 then some (w32 (fld 8 (b2n f.hintEn) + f.ageCap.toNat))
  else if o = 4 then some (w32 (fld 12 f.pageMode.toNat + fld 8 f.tinit.toNat + fld 4 f.tmax.toNat + f.tmin.toNat))
  else if o = 8 then some (w32 (fld 24 f.wrAge.toNat + fld 16 f.drainMax.toNat + fld 8 f.lo.toNat + f.hi.toNat))
  else if 0x10 ≤ o ∧ o < 0x50 then
    let i : Fin 16 := Fin.ofNat 16 ((o - 0x10) / 4)
    some (w32 (fld 18 (c.occ (BitVec.ofNat 4 i.val)) + fld 9 (f.rsvMax.get i).toNat + (f.rsvMin.get i).toNat))
  else if o = 0x80 then
    some (w32 (fld 31 (b2n x.tripHold) + fld 29 (s.map.twinRole n) + fld 27 (b2n (c.offline 1)) + fld 26 (b2n (c.offline 0))
      + fld 25 (b2n (x.wmode.get 1)) + fld 24 (b2n (x.wmode.get 0)) + fld 16 ((List.finRange 16).countP c.lbBusy)
      + x.tt.length))
  else if o = 0x90 then some c.cnt.act
  else if o = 0x94 then some c.cnt.col
  else if o = 0x98 then some c.cnt.fwd
  else if o = 0x9C then some c.cnt.amo
  else if o = 0xA0 then some c.cnt.confl
  else if o = 0xA4 then some (cnt (w32 (fld 16 (c.rsvNow.countP (·.protected s.now)) + c.rsvNow.length)))
  else if o = 0xA8 then some (cnt c.cnt.stcPass)
  else if o = 0xAC then some (cnt c.cnt.stcFail)
  else if o = 0xB0 then some (cnt c.cnt.rsvEvict)
  else if 0x100 ≤ o ∧ o < 0x140 then
    let i : Fin 16 := Fin.ofNat 16 ((o - 0x100) / 4)
    some (if i.val < 3 then 0 else (f.weight.get i).setWidth 32)
  else if o = 0x140 then some (w32 (fld 8 f.maintCls.toNat + fld 4 f.yellowCost.toNat))
  else if o = 0x144 then some (w32 (fld 20 x.ptr.toNat + x.cap.toNat))
  else if o = 0x148 then some 0
  else if 0x180 ≤ o ∧ o < 0x1C0 then
    let h := x.hwm.get (Fin.ofNat 16 ((o - 0x180) / 4))
    some (h.depth ++ h.lat)
  else if o = 0x200 then
    some (w32 (fld 16 c.gate.guard.toNat + fld 8 (b2n c.gate.pend.en) + c.gate.pend.len % 32))
  else if o = 0x204 then some (w32 c.gate.pend.cycle)
  else if o = 0x208 then some (w32 c.gate.pend.phase)
  else if o = 0x20C then
    let g := c.gate.settle s.now
    some (w32 (fld 31 (b2n (g.commit.isSome && g.force.en)) + fld 30 (b2n g.force.en)
      + fld 26 (if g.force.en then g.entry.val else 0) + fld 16 (s.guardEff n) + g.openMask.toNat))
  else if 0x240 ≤ o ∧ o < 0x2C0 then
    let i : Fin 16 := Fin.ofNat 16 ((o - 0x240) / 8)
    some (if o % 8 = 0 then (c.gate.pend.dur.get i).setWidth 32 else (c.gate.pend.mask.get i).setWidth 32)
  else if o = 0x300 then some (w32 (fld 24 (b2n f.hold) + fld 16 f.ceWin.toNat + f.ceThresh.toNat))
  else if o = 0x304 then
    some (w32 (fld 31 (b2n c.share) + fld 30 (b2n c.repair.isSome) + fld 29 (b2n c.holdIdle)
      + fld 19 (c.remap.toList.countP (·.st != .free)) + fld 12 ((c.pc.get 1).marks.toNat / 2 ^ 32)
      + fld 8 ((c.pc.get 0).marks.toNat / 2 ^ 32) + fld 4 ((c.pc.get 1).nmark) + (c.pc.get 0).nmark))
  else if o = 0x308 then some ((c.pc.get 0).marks.setWidth 32)
  else if o = 0x30C then some ((c.pc.get 1).marks.setWidth 32)
  else if o = 0x310 then some (cnt c.cnt.ce)
  else if o = 0x314 then some (cnt c.cnt.ceErase)
  else if o = 0x318 then some (cnt c.cnt.ue)
  else if o = 0x31C then some (cnt c.cnt.retryOk)
  else if o = 0x320 then some (cnt c.cnt.dscrub)
  else if o = 0x324 then some (cnt c.cnt.dscrubSkip)
  else if o = 0x328 then some (cnt c.cnt.poisonRd)
  else if o = 0x32C then some (cnt c.cnt.poisonDrop)
  else if o = 0x330 then some (cnt x.ueLoc)
  else if 0x340 ≤ o ∧ o < 0x380 then
    let r := c.remap.get (Fin.ofNat 16 ((o - 0x340) / 4))
    let l := r.loc
    some (cnt (w32 (fld 30 r.st.code + fld 29 l.pc.toNat + fld 27 l.sid.toNat + fld 25 l.bg.toNat + fld 23 l.ba.toNat
      + fld 9 l.row.toNat + fld 5 l.col.toNat + fld 4 (b2n r.pair))))
  else if o = 0x400 then
    let code := fun (i : SidIx) => (mulCode (s.mult n i)).toNat
    let fails := fun (i : SidIx) => (if s.map.isFollower n then [n] else s.map.reach n).any fun k => (s.chan.get k).rf.tmpFail.get i
    some (w32 (fld 30 (b2n f.refAllBank) + fld 28 f.rateMin.toNat
      + fld 24 (((List.finRange 4).map fun i => if fails i then 2 ^ i.val else 0).sum)
      + fld 22 (code 3) + fld 20 (code 2) + fld 18 (code 1) + fld 16 (code 0)
      + fld 8 ((c.rf.debt.toList.foldl max 0).toNat % 64) + min 255 c.sweepOwed))
  else if o = 0x404 then some (w32 (fld 12 f.pace.toNat + f.thresh.toNat))
  else if o = 0x408 then some (s.dieTemp n 3 ++ s.dieTemp n 2 ++ s.dieTemp n 1 ++ s.dieTemp n 0)
  else if o = 0x410 then some (cnt c.cnt.ref)
  else if o = 0x414 then some (cnt c.cnt.refDl)
  else if o = 0x418 then some (cnt c.cnt.trfTrig)
  else if o = 0x41C then some (cnt c.cnt.trfSweep)
  else if o = 0x420 then some (cnt c.cnt.paceCnt)
  else if o = 0x424 then some (cnt c.cnt.trkPerr)
  else if o = 0x3F00 then some (w32 (fld 31 (b2n c.dbg.ttValid) + c.dbg.ttIdx.toNat))
  else if o = 0x3F04 then some (c.dbg.tt.extractLsb' 0 32)
  else if o = 0x3F08 then some (c.dbg.tt.extractLsb' 32 32)
  else if o = 0x3F0C then some (c.dbg.tt.extractLsb' 64 32)
  else if o = 0x3F10 then some (c.dbg.tt.extractLsb' 96 16 |>.setWidth 32)
  else if o = 0x3F20 then some (w32 (fld 31 (b2n c.dbg.trkValid) + c.dbg.trkIdx.toNat))
  else if o = 0x3F24 then some c.dbg.trkEnt
  else if o = 0x3F28 then some (c.dbg.trkS.setWidth 32)
  else if 0x3000 ≤ o then some (Config.fwRangeValue (0x200000 + 0x4000 * n.val + o) (s.fwChan n))
  else none

/-- The lane that TSVn_LANE_IDX selects, its own number and whether it is a command lane. -/
def Chan.laneInfo (c : Chan) : Word :=
  let grp := c.laneIdx.extractLsb' 6 2
  let i := (c.laneIdx.extractLsb' 0 6).toNat
  let l : Lane := if grp = 2 then c.cmdLane.get (Fin.ofNat 20 i) else (c.pc.get (Fin.ofNat 2 grp.toNat)).lanes.get (Fin.ofNat 38 i)
  let carries : Nat :=
    if grp = 2 then (if 18 ≤ i && l.role = 3 then (c.csp.get (Fin.ofNat 2 (i - 18))).lane.toNat else i)
    else (if 36 ≤ i && l.role = 3 then ((c.pc.get (Fin.ofNat 2 grp.toNat)).spares.get (Fin.ofNat 2 (i - 36))).lane.toNat else i)
  let cmd := grp == 2
  w32 (fld 31 (b2n l.trained) + fld 30 (b2n (l.samplerB && !cmd)) + fld 24 (if cmd then 0 else l.rxTap.toNat)
    + fld 18 l.txTap.toNat + fld 12 l.width.toNat + fld 8 (min 8 l.disagree) + fld 6 l.role.toNat + carries)

/-- Registers of a TSV PHY (R305). -/
def State.readTsv (s : State) (n : Ch) (o : Nat) : Option Word :=
  let c := s.chan.get n
  let g := fun (p : Pc) => c.pc.get p
  let sp := fun (p : Pc) (i : Fin 2) => (g p).spares.get i
  let en := fun (x : Spare) => b2n x.en
  if o = 0 then
    some (w32 (fld 30 c.train.toNat + fld 29 (b2n ((c.offline 0 && (g 0).chPause) || (c.offline 1 && (g 1).chPause)))
      + fld 28 (b2n (c.offline 1)) + fld 27 (b2n (c.offline 0))
      + fld 26 (b2n (s.mgmt.fw.urgent.any fun r => r.n == s.map.server n && !r.sched))
      + fld 18 (g 1).openLanes + fld 16 (g 0).openLanes + fld 11 (en (c.csp.get 1)) + fld 6 ((c.csp.get 1).lane.toNat % 32)
      + fld 5 (en (c.csp.get 0)) + (c.csp.get 0).lane.toNat % 32))
  else if o = 4 then
    some (w32 (fld 31 (en (sp 1 1)) + fld 25 (sp 1 1).lane.toNat + fld 24 (en (sp 1 0)) + fld 18 (sp 1 0).lane.toNat
      + fld 15 (en (sp 0 1)) + fld 9 (sp 0 1).lane.toNat + fld 8 (en (sp 0 0)) + fld 2 (sp 0 0).lane.toNat))
  else if o = 8 then some (c.laneIdx.setWidth 32)
  else if o = 0xC then some c.laneInfo
  else if o = 0x10 then some c.cnt.pause
  else if o = 0x14 then some c.cnt.disagree
  else if o = 0x18 then some c.cnt.caerr
  else if o = 0x1C then some c.cnt.margin
  else if 0x3000 ≤ o then some (Config.fwRangeValue (0x300000 + 0x4000 * n.val + o) (s.fwTsv n))
  else none

/-- R397: a word of the control space outside the mailbox windows, the aliases and LOG_POP; none where unassigned. A
read of a semaphore here does not acquire it (R358). -/
def State.peek (s : State) (o : Nat) : Option Word :=
  if o % 4 ≠ 0 then none
  else if o < 0x10000 then s.readGlobal o
  else if o < 0x20000 then s.readAon (o - 0x10000)
  else if o = 0x20000 then some s.mgmt.fuse.status
  else if 0x21000 ≤ o ∧ o < 0x30000 then some (Config.fwRangeValue o s.fwFuse)
  else if 0x100000 ≤ o ∧ o < 0x150000 then s.readHlm (Fin.ofNat 20 ((o - 0x100000) / 0x4000)) (o % 0x4000)
  else if 0x180000 ≤ o ∧ o < 0x194000 then s.readPort (Fin.ofNat 320 ((o - 0x180000) / 0x100)) (o % 0x100)
  else if 0x200000 ≤ o ∧ o < 0x300000 then s.readChan (Fin.ofNat 64 ((o - 0x200000) / 0x4000)) (o % 0x4000)
  else if 0x300000 ≤ o ∧ o < 0x400000 then s.readTsv (Fin.ofNat 64 ((o - 0x300000) / 0x4000)) (o % 0x4000)
  else none

/-! ## Debug views of entries (R123, R261, R458) -/

def RKind.code : RKind → BitVec 4
  | .rd64 => 0 | .rd128 => 1 | .ldr => 2 | .hint => 3 | .wr64 => 4 | .wrp => 5 | .stc => 6 | .amo => 7 | .mrd => 8
  | .mwr => 9 | .fenceW => 0xA | .fenceAll => 0xA | .cfgRd => 0xA | .cfgWr => 0xA | .srEnter => 0xA

def EState.code : EState → BitVec 4
  | .chain => 1 | .wait => 2 | .hit => 3 | .colrd => 4 | .lb => 5 | .colwr => 6 | .resp => 7 | .sram => 8 | .hold => 9

/-- R123: bits [103:0] of an entry. -/
def Entry.bits (e : Entry) : BitVec 104 :=
  e.st.code ++ e.kind.code ++ e.cls ++ e.gport ++ e.tag ++ e.loc.pc ++ e.loc.sid ++ e.loc.bg ++ e.loc.ba ++ e.loc.row
    ++ e.loc.col ++ e.passed ++ bit1 e.yellow ++ bit1 e.twin ++ bit1 e.half ++ bit1 e.poison ++ bit1 e.maint
    ++ (0 : BitVec 7) ++ e.lb ++ e.arr ++ e.aop ++ e.asz ++ (0 : BitVec 3)

/-- A FREE entry reads as all zero; a live one carries its check bits (log entry 11, DESIGN CHOICE). -/
def Chan.entryView (c : Chan) (i : EntryIx) : BitVec 112 :=
  match c.entry? i with
  | none => 0
  | some e => Config.ttCheck e.bits ++ e.bits

/-- R261: a tracker entry as stored, parity included (an entry whose parity fails is shown as it is). -/
def Tracker.view (t : Tracker) (i : Nat) : Word :=
  match t.ents.find? (·.i == i) with
  | none => 0
  | some e =>
    let body : BitVec 31 := bit1 e.sweep ++ (0 : BitVec 1) ++ e.row ++ e.v
    bit1 (parity body != e.perr) ++ body

end Sys2Proof.Machine
end

