-- ==== Sys2Proof/Machine/Event.lean ====
section
/-! DEFINITION. Events, their delivery and the Silk log (chapter 14, R412 to R429). The register accesses among these
steps are in Machine/Fabric.lean. -/

namespace Sys2Proof.Machine

/-- R320: MGMT is powered up. -/
def State.mgmtOn (s : State) : Bool := s.pwr.dom.get 1 == 4

/-! ## The Silk log -/

/-- R421. -/
def logHeader (type : BitVec 6) (trunc gap : Bool) (seq : BitVec 16) (len : Nat) : Word :=
  type ++ bit1 trunc ++ bit1 gap ++ seq ++ BitVec.ofNat 8 len

/-- R421, R424: a gap marker with its count. -/
def gapMarker (count : Nat) : Word := logHeader 0 false true (BitVec.ofNat 16 (min 65535 count)) 0

/-- Usable words free in the filling bank (R420). -/
def SilkLog.free (l : SilkLog) : Nat := 2047 - l.fill.length

/-- R426: EV353 when the unread words rise to the threshold from below. -/
def State.levelCheck (old : Nat) (s : State) : State :=
  let l := s.mgmt.log
  let t := l.levelThresh.toNat
  if t ≠ 0 ∧ old < t ∧ t ≤ l.unread then s.raiseG 353 (BitVec.ofNat 24 l.unread) 0 else s

/-- R424: a packet is dropped. -/
def State.dropPkt (s : State) : State :=
  let first := !s.mgmt.log.dropRun
  let s := s.updLog fun l =>
    { l with drops := l.drops + 1, dropped := satInc l.dropped, gap := true, dropRun := true }
  if first then s.raiseG 354 0 s.mgmt.log.status else s

/-- R413, R421, R423, R424: a packet is closed: its header is written, with the sequence number and the gap flag. -/
def State.closePkt (s : State) (type : BitVec 6) (trunc : Bool) (payload : List Word) : State :=
  let old := s.mgmt.log.unread
  let now := s.now
  let s := s.updLog fun l =>
    { l with fill := l.fill ++ logHeader type trunc l.gap l.seq payload.length :: payload, seq := l.seq + 1,
             gap := false, dropRun := false, truncated := if trunc then satInc l.truncated else l.truncated,
             firstClosed := some (l.firstClosed.getD now), waiting := none }
  let s := s.levelCheck old
  -- R413: a firmware record with its attention flag
  match payload with
  | w :: _ => if type = 2 ∧ w.getLsbD 31 = true then s.raiseG 359 (w.extractLsb' 0 16 |>.setWidth 24) 0 else s
  | [] => s

/-- A hardware packet arrives at the holding queue of 16 (R420, R424). -/
def State.queuePkt (s : State) (p : LogPkt) : State :=
  if 16 ≤ s.mgmt.log.hq.length then s.dropPkt else s.updLog fun l => { l with hq := l.hq ++ [p] }

/-- R422 to R425: write the oldest queued hardware packet, wait for a swap, or drop it. -/
def State.logPacketWrite (s : State) : State :=
  let l := s.mgmt.log
  match l.hq with
  | [] => s
  | p :: r =>
    if l.openPkt.isSome || !s.mgmtOn then s
    else if l.free < p.words.length + 1 ∧ l.drain.isEmpty ∧ !l.fill.isEmpty then
      s.updLog fun l => { l with waiting := some (p.words.length + 1) }
    else if l.free = 0 then (s.updLog fun l => { l with hq := r }).dropPkt
    else
      let s := s.updLog fun l => { l with hq := r }
      s.closePkt p.type (decide (l.free - 1 < p.words.length)) (p.words.take (l.free - 1))

def execLogPacketWrite (s : State) : Host.Outcome State Fault Refusal := .next s.logPacketWrite

/-- R423: one payload word of the open packet. -/
def OpenPkt.put (p : OpenPkt) (w : Word) : OpenPkt :=
  if p.trunc then p
  else if 2047 ≤ p.mark + 1 + p.words.length then { p with trunc := true }
  else if p.words.length = 254 then { p with words := p.words ++ [w], trunc := true }
  else { p with words := p.words ++ [w] }

/-- R420, R427: the open packet is closed, by its producer or with TRUNC; an abandoned one leaves its marker. -/
def State.closeOpen (s : State) (trunc : Bool) : State :=
  match s.mgmt.log.openPkt with
  | none => s
  | some p =>
    let s := s.updLog fun l => { l with openPkt := none }
    if p.abandoned then
      let now := s.now
      (s.updLog fun l => { l with fill := l.fill ++ [gapMarker 1], firstClosed := some now, gap := true }).levelCheck
        s.mgmt.log.unread
    else
      s.closePkt p.type (p.trunc || trunc) p.words

/-- R420, R425: firmware opens a packet of a declared length; a record's first word holds attention flag and code. -/
def State.fwOpen (s : State) (attention : Bool) (code : BitVec 16) (declared : Nat) : State :=
  let l := s.mgmt.log
  if l.openPkt.isSome ∨ !l.hq.isEmpty ∨ s.mgmt.fw.st == .restarting ∨ !s.mgmtOn then s
  else if l.free < declared + 1 ∧ l.drain.isEmpty ∧ !l.fill.isEmpty then
    s.updLog fun l => { l with waiting := some (declared + 1) }
  else if l.free = 0 then s.dropPkt
  else
    let p : OpenPkt :=
      { type := 2, mark := l.fill.length, words := [], trunc := false, openedAt := s.now, abandoned := false,
        attention := attention, code := code }
    s.updLog fun l => { l with openPkt := some (p.put (bit1 attention ++ (0 : BitVec 15) ++ code)) }

/-- R420, R468: what firmware does with a packet of its own. -/
def State.fwLogPacket (s : State) : FwLogAct → State
  | .openPkt a c d => s.fwOpen a c d
  | .payload w => s.updLog fun l => { l with openPkt := l.openPkt.map fun p => p.put w }
  | .closePkt =>
    match s.mgmt.log.openPkt with
    | none => s
    | some p =>
      let s := s.closeOpen false
      if p.attention && !p.abandoned then s.updFw fun f => { f with recNotes := f.recNotes.tail } else s

def execFwLogPacket (a : FwLogAct) (s : State) : Host.Outcome State Fault Refusal := .next (s.fwLogPacket a)

/-- R420, R429: a firmware packet left open for 10 us, while MGMT is powered, is closed with TRUNC. -/
def State.logPacketTimeout (s : State) : State :=
  match s.mgmt.log.openPkt with
  | none => s
  | some p => if s.mgmtOn then (s.advance (p.openedAt + 10000)).closeOpen true else s

def execLogPacketTimeout (s : State) : Host.Outcome State Fault Refusal := .next s.logPacketTimeout

/-- R425, R429: 100 us after the filling bank's first closed packet, while MGMT is powered. -/
def State.logSwapTimer (s : State) : State :=
  match s.mgmt.log.firstClosed with
  | none => s
  | some t => if s.mgmtOn then (s.advance (t + 100000)).updLog fun l => { l with swapDue := true } else s

def execLogSwapTimer (s : State) : Host.Outcome State Fault Refusal := .next s.logSwapTimer

/-- R425: the banks may swap now. -/
def SilkLog.canSwap (l : SilkLog) : Bool :=
  l.drain.isEmpty && l.openPkt.isNone && !l.fill.isEmpty &&
    (l.free == 0 || (match l.waiting with
      | some n => decide (l.free < n)
      | none => false) || l.swapDue || !l.pops.isEmpty)

/-- R424, R425: the filling bank becomes the draining bank, a gap marker at its end where packets were dropped. -/
def SilkLog.swap (l : SilkLog) : SilkLog :=
  { l with drain := l.fill ++ (if l.drops = 0 then [] else [gapMarker l.drops]), fill := [], drops := 0,
           firstClosed := none, swapDue := false, waiting := none }

/-- R427: what a flush leaves of the log. -/
def SilkLog.flush (l : SilkLog) (now : Nat) : SilkLog :=
  let e := { l with fill := [], drain := [], drops := 0, swapDue := false }
  match l.openPkt with
  | some p =>
    if p.abandoned then { e with firstClosed := none }
    else { e with openPkt := some { p with abandoned := true, mark := 0 }, gap := true, dropRun := false,
                  flushes := l.flushes + 1, firstClosed := none }
  | none => { e with fill := [gapMarker 0], gap := true, dropRun := false, flushes := l.flushes + 1,
                     firstClosed := some now }

/-- R426, R427: a flush. -/
def State.logFlush (s : State) : State :=
  let now := s.now
  (s.updLog fun l => l.flush now).levelCheck s.mgmt.log.unread

/-- R429: MGMT goes off, and the log's timers stop; MGMT is on again, and they go on with the time that remained. -/
def State.stopLog (s : State) : State :=
  let now := s.now
  s.updLog fun l => { l with stopAt := some now }
def State.resumeLog (s : State) : State :=
  let now := s.now
  s.updLog fun l =>
    let off := now - l.stopAt.getD now
    { l with stopAt := none, firstClosed := l.firstClosed.map (· + off),
             openPkt := l.openPkt.map fun p => { p with openedAt := p.openedAt + off } }

/-! ## Event delivery (R414 to R419) -/

/-- R417: length of a holdoff in ns; 0 for none. -/
def holdoffNs (h : BitVec 3) : Nat := if h = 0 then 0 else 2 ^ h.toNat * 1000

/-- R417: within the holdoff of the latest decision. -/
def inHoldoff (h : BitVec 3) (last : Option (Nat × BitVec 16)) (now : Nat) : Bool :=
  match last with
  | none => false
  | some (t, _) => decide (now < t + holdoffNs h)

/-- R417, R418: send an EVENT message, unless one of the event waits already or the link is not active. -/
def State.sendEvent (s : State) (e : Ev) : State :=
  let x := s.mgmt.ev.get e
  let h := s.hlm.get x.module
  if h.link != .active then s
  else
    let now := s.now
    let s := s.updEv e fun y => { y with lastMsg := some (now, y.occ) }
    if h.evq.any (·.e == e) then s
    else s.updHlm x.module fun h => { h with evq := h.evq ++ [{ e := e, port := x.port }] }

/-- R419: the mandatory byte and the 4 payload bytes, first byte lowest. -/
def ibiPayload (e : Ev) (occ : BitVec 16) : BitVec 40 := occ ++ BitVec.ofNat 16 e.val ++ (0x1E : BitVec 8)

/-- R417, R419: raise the next waiting interrupt of a target, one at a time; its holdoff starts. -/
def State.ibiPump (s : State) (t : Fin 4) : State :=
  let x := s.mgmt.i3c.get t
  let now := s.now
  match x.ibi, x.ibiq with
  | none, e :: r =>
    (s.updI3c t fun y => { y with ibi := some (ibiPayload e (s.mgmt.ev.get e).occ), ibiq := r }).updEv e fun y =>
      { y with lastIbi := some (now, y.occ) }
  | _, _ => s

/-- R419: an interrupt for an event, if the target may raise one. -/
def State.sendIbi (s : State) (e : Ev) : State :=
  let x := s.mgmt.ev.get e
  let t := s.mgmt.i3c.get x.ibiTgt
  if !t.ibiOn then s
  else
    let now := s.now
    let s := s.updEv e fun y => { y with lastIbi := some (now, y.occ) }
    let s := if t.ibiq.contains e then s else s.updI3c x.ibiTgt fun y => { y with ibiq := y.ibiq ++ [e] }
    s.ibiPump x.ibiTgt

/-- An event takes its place in a list by the time of its latest occurrence, after those of the same time. -/
def insertOcc (at_ : Ev → Nat) (e : Ev) : List Ev → List Ev
  | [] => [e]
  | x :: r => if at_ e < at_ x then e :: x :: r else x :: insertOcc at_ e r

/-- R419: one interrupt for each event routed to the target whose status is 1, in the order of their latest occurrences (log entry
6, DESIGN CHOICE). -/
def State.ibiAll (s : State) (t : Fin 4) : State :=
  let es := ((List.finRange 360).filter fun e =>
    let x := s.mgmt.ev.get e
    x.ibiEn && x.ibiTgt == t && x.pend).foldl (fun l e => insertOcc (fun k => (s.mgmt.ev.get k).occAt) e l) []
  (s.updI3c t fun y => { y with ibi := none, ibiq := es }).ibiPump t

/-- R421: the packet of an occurrence. -/
def eventPkt (o : Occ) (occ : BitVec 16) : LogPkt :=
  { type := 1,
    words := [occ ++ (0 : BitVec 7) ++ BitVec.ofNat 9 o.e.val, o.tb.extractLsb' 0 32, o.tb.extractLsb' 32 32,
              o.cause ++ o.detA, o.detB] }

/-- R414, R415, R417, R419, R420: an occurrence has reached the controller. -/
def State.deliver (s : State) (o : Occ) : State :=
  let now := s.now
  let s := s.updEv o.e fun y => { y with occAt := now }
  let x := s.mgmt.ev.get o.e
  let s :=
    if x.occ - x.ack = 0xFFFF then
      s.updMgmt fun g => { g with evLost := satInc g.evLost, evLostLast := BitVec.ofNat 9 o.e.val }
    else s.updEv o.e fun y => { y with occ := y.occ + 1 }
  let s := if x.msgEn && !inHoldoff x.holdoff x.lastMsg s.now then s.sendEvent o.e else s
  let s := if x.ibiEn && !inHoldoff x.holdoff x.lastIbi s.now then s.sendIbi o.e else s
  if s.mgmt.log.mask.getLsbD o.e.val then s.queuePkt (eventPkt o (s.mgmt.ev.get o.e).occ) else s

/-- R415: the oldest occurrence of the event on its way reaches the controller, while MGMT is powered. -/
def State.eventOccurrence (s : State) (e : Ev) : State :=
  match s.mgmt.occq.find? (·.e == e) with
  | none => s
  | some o =>
    if s.mgmtOn then (s.updMgmt fun g => { g with occq := g.occq.eraseP (·.e == e) }).deliver o else s

def execEventOccurrence (e : Ev) (s : State) : Host.Outcome State Fault Refusal := .next (s.eventOccurrence e)

/-- R417: at the end of a holdoff, a message or interrupt goes out if occ has changed since the last. -/
def State.eventHoldoffExpiry (s : State) (e : Ev) : State :=
  let x := s.mgmt.ev.get e
  if x.holdoff = 0 ∨ !s.mgmtOn then s
  else
    let s := match x.lastMsg with
      | none => s
      | some (t, o) =>
        let s := s.advance (t + holdoffNs x.holdoff)
        if x.msgEn && x.occ != o then s.sendEvent e else s
    match x.lastIbi with
    | none => s
    | some (t, o) =>
      let s := s.advance (t + holdoffNs x.holdoff)
      if x.ibiEn && x.occ != o then s.sendIbi e else s

def execEventHoldoffExpiry (e : Ev) (s : State) : Host.Outcome State Fault Refusal := .next (s.eventHoldoffExpiry e)

/-- R319, R340, R419: while MGMT is on, a target that holds a dynamic address raises interrupts. The address that platform
management granted it is free (log entry 4, DESIGN CHOICE). -/
def State.i3cIbiEnabled (s : State) (t : Fin 4) : State :=
  if s.mgmtOn then
    let (a, s) := s.drawBits 7
    (s.updI3c t fun y => { y with ibiOn := true, dynAddr := some (y.dynAddr.getD a) }).ibiAll t
  else s

def execI3cIbiEnabled (t : Fin 4) (s : State) : Host.Outcome State Fault Refusal := .next (s.i3cIbiEnabled t)

/-- R419: after a NACK the target raises again for every pending event routed to it. -/
def State.i3cIbiNack (s : State) (t : Fin 4) : State :=
  if (s.mgmt.i3c.get t).ibi.isSome && s.mgmtOn then s.ibiAll t else s

def execI3cIbiNack (t : Fin 4) (s : State) : Host.Outcome State Fault Refusal := .next (s.i3cIbiNack t)

end Sys2Proof.Machine
end

