-- ==== Sys2Proof/Machine/Fuse.lean ====
section
/-! DEFINITION. Fuse words, field-repair records and the fuse port (chapter 15, R442 to R451; R238 to R241, R484). -/

namespace Sys2Proof.Machine

/-! ## Words (R442, R444) -/

/-- A fuse word from its data. -/
def fuseWord (d : Word) : BitVec 39 := if d = 0 then 0 else Config.fuseCheck d ++ d

/-- A clean codeword: its data; the blank word holds 0. -/
def fuseClean (r : BitVec 39) : Bool := r == 0 || r.extractLsb' 32 7 == Config.fuseCheck (r.extractLsb' 0 32)

/-- R444: clean, corrected (the Boolean) or uncorrectable. -/
def fuseDecode (r : BitVec 39) : Option (Word × Bool) :=
  if fuseClean r then some (r.extractLsb' 0 32, false)
  else
    match (List.range 39).find? fun i => fuseClean (r ^^^ BitVec.twoPow 39 i) with
    | some i => some ((r ^^^ BitVec.twoPow 39 i).extractLsb' 0 32, true)
    | none => none

/-- What the macro holds in a word, as last read or programmed. -/
def Fuses.raw (f : Fuses) (a : Nat) : BitVec 39 :=
  match f.words.find? (·.1 == a) with
  | some x => x.2
  | none => 0

def wordPut (a : Nat) (v : BitVec 39) : List (Nat × BitVec 39) → List (Nat × BitVec 39)
  | [] => if v = 0 then [] else [(a, v)]
  | x :: r =>
    if x.1 < a then x :: wordPut a v r
    else if x.1 = a then (if v = 0 then r else (a, v) :: r)
    else if v = 0 then x :: r else (a, v) :: x :: r

def Fuses.put (f : Fuses) (a : Nat) (v : BitVec 39) : Fuses := { f with words := wordPut a v f.words }

/-- R445: the data of a usable word; a MARGINAL word of region 4 or 5 gives none. -/
def Fuses.data (f : Fuses) (a : Nat) : Option Word :=
  let strict := fuseRegion a == 4 || fuseRegion a == 5
  if f.unusable.contains a || (strict && f.marginal.contains a) then none else (fuseDecode (f.raw a)).map (·.1)

/-- R446: the shadow of a word of a region. -/
def Fuses.shadow (f : Fuses) (r off : Nat) : Option Word :=
  (f.shadows.find? fun x => x.1 == r && x.2.1 == off).map (·.2.2)

/-- The value of a word in use: its shadow, else its usable data. -/
def Fuses.value (f : Fuses) (r off : Nat) : Option Word :=
  match f.shadow r off with
  | some v => some v
  | none => f.data (fuseBase r + off)

/-! ## Trims and SRAM repairs (R431 B2, R442, R445, R446) -/

/-- R445, R446: the trims that `p` names are taken up: the value in use of their words, or the hardware default. -/
def Fuses.takeTrims (f : Fuses) (p : Nat → Bool) : Fuses :=
  { f with trims := Vector.ofFn fun i => if p i.val then f.value 0 i.val else f.trims.get i }

/-- R446: the trims of a module (0 to 19) or a channel (20 to 83). -/
def trimsOf (unit i : Nat) : Bool := decide (8 ≤ i) && Config.trimUnit i == unit

/-- R442: a word of region 2 holds a repair that is applied. -/
def repairWord (w : Word) : Bool := w != 0 && decide ((w.extractLsb' 26 6).toNat < 39)

/-- R431 B2: the words that the trim loader reads: words 0 to 7 of region 0 and 0 to 15 of region 2. -/
def trimAddr (i : Nat) : Nat := if i < 8 then i else 194 + (i - 8)

/-- R431 B2: a word that the trim loader has read at normal margin takes effect. -/
def Fuses.trimTaken (f : Fuses) (i : Nat) (r : Option (BitVec 39)) : Fuses :=
  let v := (r.bind fuseDecode).map (·.1)
  if i < 8 then { f with trims := upd f.trims (Fin.ofNat 63 i) fun _ => v }
  else match v with
    | some w => if repairWord w then { f with repairs := f.repairs ++ [w] } else f
    | none => f

/-! ## CRC and locks (R443, R445, R450) -/

/-- One step of the reflected CRC-32 of IEEE 802.3. -/
def crc32Bit (c : Nat) : Nat := if c % 2 = 1 then (c / 2) ^^^ 0xEDB88320 else c / 2
def crc32Byte (c b : Nat) : Nat :=
  crc32Bit (crc32Bit (crc32Bit (crc32Bit (crc32Bit (crc32Bit (crc32Bit (crc32Bit (c ^^^ b))))))))
def crc32Word (c : Nat) (w : Word) : Nat :=
  crc32Byte (crc32Byte (crc32Byte (crc32Byte c (w.extractLsb' 0 8).toNat) (w.extractLsb' 8 8).toNat)
    (w.extractLsb' 16 8).toNat) (w.extractLsb' 24 8).toNat

/-- R443: the CRC of a region over its words but the last. -/
def Fuses.crc (f : Fuses) (r : Nat) : Word :=
  let data := (List.range (fuseWords r - 1)).map fun i =>
    let x := f.raw (fuseBase r + i)
    match fuseDecode x with
    | some d => d.1
    | none => x.extractLsb' 0 32
  w32 (data.foldl crc32Word (2 ^ 32 - 1) ^^^ (2 ^ 32 - 1))
/-- Address of a region's CRC word. -/
def crcAddr (r : Nat) : Nat := fuseBase r + fuseWords r - 1
def Fuses.crcOk (f : Fuses) (r : Nat) : Bool := (fuseDecode (f.raw (crcAddr r))).map (·.1) == some (f.crc r)

/-- R443: at least 16 of the 32 data bits; R445: an unusable or MARGINAL lock word reads as blown. -/
def Fuses.lockBlown (f : Fuses) (r : Nat) : Bool :=
  let a := 1041 + r
  f.unusable.contains a || f.marginal.contains a || decide (16 ≤ countBits ((f.raw a).extractLsb' 0 32))

/-! ## Field-repair records (R238 to R241) -/

def recHPPR : BitVec 4 := 1
def recREMAP : BitVec 4 := 2
def recLANE : BitVec 4 := 3
def recCHDIS : BitVec 4 := 4

/-- R241: word 0 of a record. -/
def recWord0 (type : BitVec 4) (n : Ch) (l : Loc) : Word :=
  type ++ (0 : BitVec 1) ++ BitVec.ofNat 6 n.val ++ l.pc ++ l.sid ++ l.bg ++ l.ba ++ l.row
/-- R241: word 1. -/
def recWord1 (col : BitVec 4) (lane : BitVec 6) (spare : BitVec 2) : Word := col ++ lane ++ spare ++ (0 : BitVec 20)

def recType (w0 : Word) : BitVec 4 := w0.extractLsb' 28 4
def recVoid (w0 : Word) : Bool := w0.getLsbD 27
def recChan (w0 : Word) : Ch := Fin.ofNat 64 (w0.extractLsb' 21 6).toNat
def recLoc (w0 w1 : Word) : Loc :=
  { pc := w0.extractLsb' 20 1, sid := w0.extractLsb' 18 2, bg := w0.extractLsb' 16 2, ba := w0.extractLsb' 14 2,
    row := w0.extractLsb' 0 14, col := w1.extractLsb' 28 4 }

/-- R239: the records that boot applies: known type, not void, both words usable. -/
def Fuses.applied (f : Fuses) : List (Word × Word) :=
  (List.range 128).filterMap fun i =>
    match f.data (784 + 2 * i), f.data (785 + 2 * i) with
    | some w0, some w1 => if recType w0 = 0 ∨ 4 < (recType w0).toNat ∨ recVoid w0 then none else some (w0, w1)
    | _, _ => none

/-- R238: the first record whose type reads 0. -/
def Fuses.nextRecord (f : Fuses) : Option Nat :=
  (List.range 128).find? fun i => (f.raw (784 + 2 * i)).extractLsb' 28 4 == 0

/-- The type of the record in hand has been programmed: `nextRecord` is past it. -/
def Fuses.typed (f : Fuses) : Bool :=
  !f.jobOps.isEmpty && decide (f.jobOps.length < 5) && match f.jobs with
    | .add _ _ :: _ => true
    | _ => false

/-- R366: records reserved for which `nextRecord` still has to find a place. -/
def Fuses.reserved (f : Fuses) : Nat :=
  (f.jobs.countP fun j => match j with
    | .add _ _ => true
    | .void _ _ => false) - (if f.typed then 1 else 0)

/-- R240, R450: a record can be reserved. -/
def Fuses.recordFree (f : Fuses) : Bool :=
  !f.lockBlown 6 && match f.nextRecord with
    | none => false
    | some i => decide (i + f.reserved < 128)

/-- R448: data bits first, check bits last; in a record's word 0 the type field before all. -/
def progOps (a : Nat) (d : Word) : List (Nat × BitVec 39) :=
  [(a, d.setWidth 39), (a, fuseWord d &&& ~~~(d.setWidth 39))]
def recordOps (a : Nat) (w0 w1 : Word) : List (Nat × BitVec 39) :=
  (a, (w0 &&& 0xF0000000).setWidth 39) :: progOps a w0 ++ progOps (a + 1) w1

/-- R442, R443, R448: the lock word of a region is all ones in its data, with its check bits. -/
def lockOps (r : Nat) : List (Nat × BitVec 39) := progOps (1041 + r) (w32 (2 ^ 32 - 1))

/-- The first record that a void job names. -/
def Fuses.recordAt (f : Fuses) (w0 w1 : Word) : Option Nat :=
  (List.range 128).find? fun i =>
    (f.raw (784 + 2 * i)).extractLsb' 0 32 == w0 && (f.raw (785 + 2 * i)).extractLsb' 0 32 == w1

/-- The program operations of the first job; a job that has nothing to do is done. Once region 6 is locked, no further record is
written (R450). -/
def Fuses.loadJob (f : Fuses) : Fuses :=
  if f.lockBlown 6 then { f with jobs := [] }
  else
  match f.jobs with
  | [] => f
  | .add w0 w1 :: r =>
    match f.nextRecord with
    | none => { f with jobs := r }
    | some i => { f with jobOps := recordOps (784 + 2 * i) w0 w1 }
  | .void w0 w1 :: r =>
    match f.recordAt w0 w1 with
    | none => { f with jobs := r }
    | some i => { f with jobOps := progOps (784 + 2 * i) (w0 ||| 0x08000000) }

/-! ## The port (R484) -/

/-- What the controller does next: the trim loader's reads, the boot reading, the rest of a record in hand, a command, then
firmware's next record. -/
def State.fuseNext (s : State) : Option (Nat × FuseWant × BitVec 39) :=
  let f := s.mgmt.fuse
  let reading := (s.boot.ph == .cold 5 || s.boot.ph == .warm 3) && decide (s.boot.readAt < 1049)
  if reading then some (s.boot.readAt, .boot, 0)
  else if s.boot.ph == .cold 2 then (if s.boot.readAt < 24 then some (trimAddr s.boot.readAt, .trim, 0) else none)
  else
    match f.jobOps with
    | (a, w) :: _ => some (a, .prog, w)
    | [] =>
    match f.cmd with
    | none => none
    | some c =>
      match c.progs with
      | (a, w) :: _ => some (a, .prog, w)
      | [] =>
        let a := fuseBase c.region + c.off + c.done
        some (a, if c.op = 0x58 then (if c.margin then .readMargin else .read) else if c.stage = 2 then .readMargin else .read, 0)

/-- R388, R450: the lock of region 6 starts, once no record is being programmed: the CRC word over the records present comes first. -/
def Fuses.loadLock (f : Fuses) : Fuses :=
  match f.cmd with
  | none => f
  | some c =>
    if c.op = 0x5B ∧ c.stage = 0 ∧ f.jobOps.isEmpty = true then
      { f with cmd := some { c with stage := 1, progs := progOps (crcAddr 6) (f.crc 6) } } else f

/-- R484: gh_fuse_op_o: 0b00 normal read, 0b01 margin read, 0b10 program; a word of the boot reading is read at either (R445). -/
def Fuses.opPin (f : Fuses) : BitVec 2 :=
  match f.want with
  | .boot => if f.first.isSome then 1 else 0
  | .trim | .read => 0
  | .readMargin => 1
  | .prog => 2

/-- R484: a request is raised where none is and ack is low. -/
def State.fuseGo (s : State) : State :=
  let f := s.mgmt.fuse
  if f.req || f.ackHigh || s.boot.ph == .off then s
  else
    let s := if f.cmd.isNone && f.jobOps.isEmpty then s.updFuse (·.loadJob) else s.updFuse (·.loadLock)
    match s.fuseNext with
    | none => s
    | some (a, w, d) =>
      let now := s.now
      s.updFuse fun f => { f with req := true, addr := a, want := w, wdata := d, reqAt := now }

/-- R366: reserve a record; the Boolean says that none was left. -/
def State.addRecord (s : State) (w0 w1 : Word) : Bool × State :=
  if s.mgmt.fuse.recordFree then (false, (s.updFuse fun f => { f with jobs := f.jobs ++ [.add w0 w1] }).fuseGo)
  else (true, s)
/-- R239: void the records that equal these words. -/
def State.voidRecord (s : State) (w0 w1 : Word) : State :=
  (s.updFuse fun f => { f with jobs := f.jobs ++ [.void w0 w1] }).fuseGo

/-! ## Boot reading (R445) -/

/-- R445: the word at the boot position is judged from its two reads. -/
def Fuses.judge (f : Fuses) (a : Nat) (normal margin : Option (BitVec 39)) : Fuses :=
  match normal, margin with
  | some x, some y =>
    let f := f.put a x
    if x = y then (if (fuseDecode x).isSome then f else { f with unusable := f.unusable ++ [a] })
    else
      let f := { f with marginal := f.marginal ++ [a] }
      let d := fun (r : BitVec 39) => (fuseDecode r).map (·.1)
      -- a lock word is read by its count of ones at either margin (R443)
      let f := if 1041 ≤ a then f.put a (x ||| y) else f
      if (d x).isSome && d x == d y then f else { f with unusable := f.unusable ++ [a] }
  | _, _ => { f with unusable := f.unusable ++ [a] }

/-- R445: one read of the boot reading has been answered. -/
def State.bootRead (s : State) (r : Option (BitVec 39)) : State :=
  match s.mgmt.fuse.first with
  | none => s.updFuse fun f => { f with first := some r }
  | some x =>
    (s.updFuse fun f => { f.judge f.addr x r with first := none }).updBoot fun b => { b with readAt := b.readAt + 1 }

/-- R431 B2: a word of the trim loader; the oscillator trim of word 0 is applied before the others are read. -/
def State.trimRead (s : State) (r : Option (BitVec 39)) : State :=
  if s.boot.ph != .cold 2 || decide (24 ≤ s.boot.readAt) then s
  else
    let i := s.boot.readAt
    let s := s.updFuse fun f =>
      let f := match r with
        | some x => f.put (trimAddr i) x
        | none => f
      f.trimTaken i r
    (s.updBoot fun b => { b with readAt := i + 1 }).updClk fun k => { k with trims := true }

/-! ## Commands of the fuse controller (R385, R387, R388, R447) -/

/-- The command ends with its answer. -/
def State.fuseEnd (s : State) (c : FuseCmd) (status : BitVec 4) (result : BitVec 8) : State :=
  (s.updFuse fun f => { f with cmd := none }).answerTo c.by_ status result

/-- Write a word into a mailbox window. -/
def State.winPut (s : State) (k : Mb) (a : Nat) (v : Word) : State :=
  s.updMb k fun b => { b with win := memWriteW b.win a v }
def State.winWord (s : State) (k : Mb) (a : Nat) : Word := memReadW (s.mb k).win a
def State.winByte (s : State) (k : Mb) (a : Nat) : Byte := memRead (s.mb k).win a

/-- R385: what FUSE_READ reports of a word, kept until the last one has been read; a read that times out is uncorrectable and its data
are free (R484). -/
def State.fuseReport (s : State) (c : FuseCmd) (r : Option (BitVec 39)) : FuseCmd × State :=
  let a := fuseBase c.region + c.off + c.done
  let f := s.mgmt.fuse
  let (raw, s) := match r with
    | some x => (x, s)
    | none => s.drawBits 39
  let dec := if r.isNone then none else fuseDecode raw
  let d : Word := match dec with
    | some x => x.1
    | none => raw.extractLsb' 0 32
  let flags := b2n (dec.any (·.2)) + 2 * b2n dec.isNone + 4 * b2n (f.marginal.contains a)
    + 8 * b2n (f.shadow c.region (c.off + c.done)).isSome
  ({ c with done := c.done + 1, vals := c.vals ++ [d, w32 ((raw.extractLsb' 32 7).toNat + 256 * flags)] }, s)

/-- R354, R385: the results go into the window in one hold, which ends before the answer is posted. -/
def State.putWords (s : State) (k : Mb) (p : Nat) : List Word → State
  | [] => s
  | w :: r => (s.winPut k p w).putWords k (p + 4) r

def State.fuseResults (s : State) (c : FuseCmd) : State :=
  match c.by_ with
  | none => s
  | some (k, _) => s.putWords k (c.base + 16) c.vals

def State.setCmd (s : State) (c : FuseCmd) : State := s.updFuse fun f => { f with cmd := some c }

/-- A word of FUSE_PROGRAM is done. -/
def State.progNext (s : State) (c : FuseCmd) : State :=
  if c.done + 1 < c.count then s.setCmd { c with done := c.done + 1, stage := 0, progs := [] } else s.fuseEnd c stOK 0

/-- R387, R448: a read of FUSE_PROGRAM: stage 0 the word before it is programmed, 1 and 2 the read-back. -/
def State.progRead (s : State) (c : FuseCmd) (r : Option (BitVec 39)) : State :=
  let v := c.vals.getD c.done 0
  let a := fuseBase c.region + c.off + c.done
  let got := r.bind fun x => (fuseDecode x).map (·.1)
  let fail := fun (s : State) => s.fuseEnd c stFAULT (BitVec.ofNat 8 c.done)
  if c.stage = 0 then
    if got = some v then s.progNext c
    else if r = some 0 then s.setCmd { c with stage := 1, progs := progOps a v }
    else fail s
  else if got ≠ some v then fail s
  else if c.stage = 1 then s.setCmd { c with stage := 2 } else s.progNext c

/-- R450: the lock word of a region is blown; regions 4 and 5 lose their shadows (R446). -/
def State.lockDone (s : State) (c : FuseCmd) : State :=
  let s := s.updFuse fun f =>
    { f with locked := f.locked ||| BitVec.twoPow 8 c.region,
             factory := if c.region = 7 then false else f.factory,
             shadows := if c.region = 4 ∨ c.region = 5 then f.shadows.filter (·.1 != c.region) else f.shadows }
  let s := if c.op = 0 then s.updBoot fun b => { b with closeRes := true } else s
  s.fuseEnd c stOK 0

/-- R388, R450: FUSE_LOCK. Stage 1 reads back the CRC word programmed for region 6, stage 2 at margin; then the lock. -/
def State.lockRead (s : State) (c : FuseCmd) (r : Option (BitVec 39)) : State :=
  let got := r.bind fun x => (fuseDecode x).map (·.1)
  if got ≠ some (s.mgmt.fuse.crc 6) then s.fuseEnd c stVERIFY 0
  else if c.stage = 1 then s.setCmd { c with stage := 2 }
  else s.setCmd { c with stage := 3, progs := lockOps c.region }

/-- A program operation of the record in hand is done. -/
def Fuses.jobProgged (f : Fuses) : Fuses :=
  if f.jobOps.tail.isEmpty then
    { f with jobOps := [], jobs := match f.jobs with
        | .add _ _ :: r => r
        | l => l }
  else { f with jobOps := f.jobOps.tail }

/-- The first program operation in hand is done: that of a record, while one is being programmed, else that of the command. -/
def State.progged (s : State) : State :=
  if !s.mgmt.fuse.jobOps.isEmpty then s.updFuse (·.jobProgged)
  else
    match s.mgmt.fuse.cmd with
    | some c =>
      let c := { c with progs := c.progs.tail }
      if c.progs.isEmpty && (c.op == 0 || (c.op == 0x5B && c.stage == 3)) then s.lockDone c else s.setCmd c
    | none => s

/-- A read of a command has been answered, or has timed out. -/
def State.cmdRead (s : State) (r : Option (BitVec 39)) : State :=
  match s.mgmt.fuse.cmd with
  | none => s
  | some c =>
    if c.op = 0x58 then
      let (c, s) := s.fuseReport c r
      if c.done < c.count then s.setCmd c else (s.fuseResults c).fuseEnd c stOK 0
    else if c.op = 0x5A then s.progRead c r
    else s.lockRead c r

/-- R484: an operation has ended: read data, or none after a timeout. -/
def State.fuseAnswered (s : State) (r : Option (BitVec 39)) : State :=
  match s.mgmt.fuse.want with
  | .boot => s.bootRead r
  | .trim => s.trimRead r
  | .read | .readMargin => s.cmdRead r
  | .prog => s.progged

/-- R484: the macro raises ack. -/
def State.fuseOpAck (s : State) (rdata : BitVec 39) : State :=
  let f := s.mgmt.fuse
  if !f.req then s
  else
    let s := s.updFuse fun f =>
      let f := { f with req := false, ackHigh := true }
      if f.want == .prog then f.put f.addr (f.raw f.addr ||| f.wdata) else f
    s.fuseAnswered (some rdata)

def execFuseOpAck (rdata : BitVec 39) (s : State) : Host.Outcome State Fault Refusal := .next (s.fuseOpAck rdata)

/-- R484: the macro lowers ack, and the next operation may start. -/
def State.fuseAckLow (s : State) : State := (s.updFuse fun f => { f with ackHigh := false }).fuseGo

def execFuseAckLow (s : State) : Host.Outcome State Fault Refusal := .next s.fuseAckLow

/-- R484: 100 us without ack: the read is uncorrectable, and nothing is issued until ack reads low. -/
def State.fuseReadTimeout (s : State) : State :=
  let f := s.mgmt.fuse
  if !f.req || f.want == .prog then s
  else ((s.advance (f.reqAt + 100000)).updFuse fun f => { f with req := false, ackHigh := true }).fuseAnswered none

def execFuseReadTimeout (s : State) : Host.Outcome State Fault Refusal := .next s.fuseReadTimeout

/-- R484: 1 ms without ack ends the command with FAULT; which bits have been programmed is free. -/
def State.fuseProgramTimeout (s : State) : State :=
  let f := s.mgmt.fuse
  if !f.req || f.want != .prog then s
  else
    let s := s.advance (f.reqAt + 1000000)
    let (m, s) := s.drawBits 39
    let s := s.updFuse fun f => { f.put f.addr (f.raw f.addr ||| (f.wdata &&& m)) with req := false, ackHigh := true }
    if !f.jobOps.isEmpty then s.updFuse fun f => { f with jobOps := [], jobs := f.jobs.tail }
    else
      match f.cmd with
      | some c => s.fuseEnd c stFAULT (BitVec.ofNat 8 c.done)
      | none => s

def execFuseProgramTimeout (s : State) : Host.Outcome State Fault Refusal := .next s.fuseProgramTimeout

/-! ## Starting a command -/

/-- The fuse controller takes a command. -/
def State.fuseStart (s : State) (c : FuseCmd) : State := (s.setCmd c).fuseGo

/-- R388, R450, R451: the lock of a region starts: region 6 first has its CRC word programmed; FORCE skips the check. -/
def State.lockStart (s : State) (by_ : Option (Mb × BitVec 2)) (op : BitVec 7) (r : Nat) (force : Bool) : State :=
  let c : FuseCmd :=
    { by_ := by_, op := op, region := r, off := 0, count := 1, done := 0, base := 0, margin := false, vals := [],
      stage := 3, progs := lockOps r }
  if r = 6 ∧ !force then
    s.fuseStart { c with off := 256, stage := 0, progs := [] }
  else s.fuseStart c

end Sys2Proof.Machine
end

