-- ==== Sys2Proof/Machine/Store.lean ====
section
/-! DEFINITION. Transaction-table entries and the lines they work on: creation, same-line order, the line buffer, stores,
atomics, reservations and responses of a channel engine (chapters 04, 06, 07). -/

namespace Sys2Proof.Machine

/-! ## Kinds of entries -/

def Entry.isRead (e : Entry) : Bool :=
  match e.kind with
  | .rd64 | .rd128 | .ldr | .mrd => true
  | .hint | .wr64 | .wrp | .stc | .amo | .mwr | .fenceW | .fenceAll | .cfgRd | .cfgWr | .srEnter => false

/-- R220, R223: a demand read, or the fill of a line-buffer slot. -/
def Entry.isDemand (e : Entry) : Bool := e.kind != .mrd

/-- R223: an entry that may store to its line. -/
def Entry.mayStore (e : Entry) : Bool :=
  match e.kind with
  | .wr64 | .stc | .amo | .mwr => true
  | .wrp => e.mask != 0
  | .rd64 | .rd128 | .ldr | .hint | .mrd | .fenceW | .fenceAll | .cfgRd | .cfgWr | .srEnter => false

/-- R125: the entry awaits its column command. -/
def Entry.waits (e : Entry) : Bool := e.st == .wait || e.st == .hit

/-- R138: no column command has been issued for it. -/
def Entry.unissued (e : Entry) : Bool := e.waits || e.st == .chain || e.st == .hold

/-- R129: not yet done. -/
def Entry.undone (e : Entry) : Bool := e.st != .resp

/-- R235: an access of a repair copy, which the repair sequencer makes while it holds the bank (log entry 12, DEDUCED). -/
def Entry.isRepair (e : Entry) : Bool :=
  match e.purpose with
  | .repairRd _ | .repairWr _ => true
  | .host | .scrubRd | .scrubWb | .scrubInit | .init | .demandWb | .requalRd _ _ _ | .requalWb | .remapFill _ | .remapRelease _ => false

/-- R231, R232: the MWR that puts the data of a remap fill into the spare line. -/
def Entry.isFillWrite (e : Entry) : Bool :=
  match e.purpose with
  | .remapFill _ => e.kind == .mwr
  | .host | .scrubRd | .scrubWb | .scrubInit | .init | .demandWb | .requalRd _ _ _ | .requalWb | .remapRelease _ | .repairRd _
  | .repairWr _ => false

/-- Older entries to the line of an entry that are not done, oldest first (R129; a HINT is unordered, R194; the
requests of a held bank wait for the repair copy, log entry 12, DEDUCED); the fill of the line's spare goes before every
request to it (R231). -/
def Chan.olderSame (c : Chan) (e : Entry) : List Entry :=
  if e.isRepair || e.isFillWrite then []
  else c.st.tt.filter fun o =>
    (decide (o.age < e.age) || o.isFillWrite) && o.loc == e.loc && o.undone && o.kind != .hint

/-! ## The line buffer (R134, R137) -/

/-- The slot that holds a line. -/
def Chan.lbOf (c : Chan) (l : Loc) : Option (Fin 16) :=
  (List.finRange 16).find? fun i => let s := c.st.lb.get i; s.valid && s.line == some l

def Chan.updLb (c : Chan) (i : Fin 16) (f : LbSlot → LbSlot) : Chan := c.updSt fun x => { x with lb := upd x.lb i f }

/-- The slot's write-back data are still leaving (R130, R465). -/
def Chan.lbFlying (c : Chan) (now : Nat) (i : Fin 16) : Bool :=
  decide (now < (c.st.lb.get i).wbEnd)

/-- The least recently used slot of a list. -/
def Chan.lru (c : Chan) : List (Fin 16) → Option (Fin 16)
  | [] => none
  | i :: r =>
    match c.lru r with
    | none => some i
    | some j => if (c.st.lb.get j).lastUse < (c.st.lb.get i).lastUse then some j else some i

/-- R134: the slot that a new line may take: an empty one, else a clean one, least recently used first. -/
def Chan.lbFree (c : Chan) (now : Nat) : Option (Fin 16) :=
  let all := List.finRange 16
  match all.find? fun i => (c.st.lb.get i).line.isNone with
  | some i => some i
  | none => c.lru (all.filter fun i => !(c.st.lb.get i).dirty && !c.lbBusy i && !c.lbFlying now i)

/-- R134: a new line needs a slot and only dirty ones are unused: the least recently used is written back. -/
def Chan.lbEvict (now : Nat) (c : Chan) : Chan :=
  let cand := (List.finRange 16).filter fun i => (c.st.lb.get i).dirty && !c.lbBusy i
  if cand.any fun i => (c.st.lb.get i).wb then c
  else
    match c.lru cand with
    | none => c
    | some i =>
      let a := c.st.ageCtr
      (c.updLb i fun s => { s with wb := true, wbAge := a, wbAsk := now }).updSt fun x => { x with ageCtr := a + 1 }

/-- Empty a slot. -/
def Chan.lbDrop (c : Chan) (i : Fin 16) : Chan := c.updLb i fun _ => {}

/-! ## Marks and counts (R183) -/

/-- R185: the largest sample of a CC. -/
def sampleIn {w : Nat} (old : Option (Nat × BitVec w)) (now : Nat) (v : BitVec w) : Option (Nat × BitVec w) :=
  match old with
  | some (t, u) => if t = now ∧ v.toNat < u.toNat then some (t, u) else some (now, v)
  | none => some (now, v)

/-- R185: what a mark keeps when it is cleared: a sample of the same CC. -/
def sampleKept {w : Nat} (old : Option (Nat × BitVec w)) (now : Nat) : BitVec w :=
  match old with
  | some (t, v) => if t = now then v else 0
  | none => 0

def Chan.markLat (c : Chan) (now : Nat) (cls : BitVec 4) (lat : Nat) : Chan :=
  let v := BitVec.ofNat 23 (min 8388607 lat)
  c.updSt fun x => { x with hwm := upd x.hwm (Fin.ofNat 16 cls.toNat) fun h =>
    { h with lat := BitVec.ofNat 23 (max h.lat.toNat v.toNat), latIn := sampleIn h.latIn now v } }
def Chan.markDepth (c : Chan) (now : Nat) (cls : BitVec 4) : Chan :=
  let v := BitVec.ofNat 9 (c.occ cls)
  c.updSt fun x => { x with hwm := upd x.hwm (Fin.ofNat 16 cls.toNat) fun h =>
    { h with depth := BitVec.ofNat 9 (max h.depth.toNat v.toNat), depthIn := sampleIn h.depthIn now v } }

/-- R185: a write of 1 clears a mark; a sample of the same CC is not lost. -/
def Hwm.clear (h : Hwm) (now : Nat) : Hwm :=
  { h with depth := sampleKept h.depthIn now, lat := sampleKept h.latIn now }

/-! ## Reservations (R206 to R210; log entry 52, DEDUCED) -/

/-- How many LDRs of the steps kept fall under steps 3 and 4 of R207. -/
def Chan.rsvEvictions (c : Chan) : Nat :=
  (c.st.rsvEvs.foldl (fun (x : List Rsv × Nat) v => (v.apply x.1, x.2 + b2n (v.evicts x.1))) (c.st.rsv, 0)).2

/-- The steps that are decided, and that none of CC `now` can precede any more (R126), become part of the table. -/
def settleRsv (now : Nat) (l : List Rsv) : List RsvEv → List Rsv × List RsvEv
  | [] => (l, [])
  | v :: r => if v.done.isSome && decide (v.at_ < now) then settleRsv now (v.apply l) r else (l, v :: r)

/-- The steps of the order change; CHn_CNT_RSV_EVICT follows what they evict now. -/
def Chan.updRsv (c : Chan) (now : Nat) (f : List RsvEv → List RsvEv) : Chan :=
  let c' := c.updSt fun x => { x with rsvEvs := f x.rsvEvs }
  let d := BitVec.ofNat 32 c'.rsvEvictions - BitVec.ofNat 32 c.rsvEvictions
  (c'.updCnt fun k => { k with rsvEvict := k.rsvEvict + d }).updSt fun x =>
    let r := settleRsv now x.rsv x.rsvEvs
    { x with rsv := r.1, rsvEvs := r.2 }

/-- R205, R207, R209, R222: it is known whether the data of entry i are good, or its operation stores. -/
def Chan.decideRsv (c : Chan) (now : Nat) (i : EntryIx) (b : Bool) : Chan :=
  if c.st.rsvEvs.any (·.idx == some i) then
    c.updRsv now fun l => l.map fun v => if v.idx = some i then { v with idx := none, done := some b } else v
  else c

/-- R207 to R210: what a request that takes its table entry means for the reservations. -/
def Entry.rsvOp (e : Entry) : RsvOp :=
  match e.kind with
  | .ldr => .ldr
  | .stc => .stc
  | .wr64 | .amo => .store
  | .wrp => if e.mask = 0 then .touch else .store
  | .rd64 | .rd128 | .hint | .mrd | .mwr | .fenceW | .fenceAll | .cfgRd | .cfgWr | .srEnter => .touch

/-- The same for a maintenance access: initialisation, remap fill and repair copy are stores, and the write-back of a scrub
pass has a rule of its own (R210). -/
def Entry.maintRsvOp (e : Entry) : RsvOp :=
  match e.purpose with
  | .scrubWb => .scrub
  | .scrubInit | .init | .repairWr _ => .store
  | .remapFill _ => if e.kind == .mwr then .store else .touch
  | .host | .scrubRd | .demandWb | .requalRd _ _ _ | .requalWb | .remapRelease _ | .repairRd _ => .touch

/-- The step of an entry; an LDR, an STC and a store are not decided yet. -/
def Entry.rsvEv (e : Entry) (op : RsvOp) : RsvEv :=
  let open_ := op == .ldr || op == .stc || op == .store
  { op := op, idx := if open_ then some e.idx else none, port := e.gport, loc := e.loc, twin := e.twin, at_ := e.at_,
    maint := e.maint, done := if open_ then none else some true }

/-- R126: a request precedes the maintenance accesses that entered in its CC. -/
def rsvInsert (now : Nat) (v : RsvEv) (l : List RsvEv) : List RsvEv :=
  let late := fun (o : RsvEv) => o.maint && o.at_ == now
  l.filter (fun o => !late o) ++ v :: l.filter late

/-- R188, R207 to R210: a request takes its place in the order. -/
def Chan.enterRsv (c : Chan) (now : Nat) (e : Entry) : Chan := c.updRsv now (rsvInsert now (e.rsvEv e.rsvOp))

/-- A step of no entry joins the order: a link reset (R200) or an engine recovery (R468). -/
def Chan.noteRsv (c : Chan) (now : Nat) (op : RsvOp) (port : BitVec 9) : Chan :=
  c.updRsv now fun l =>
    l ++ [{ op := op, idx := none, port := port, loc := ⟨0, 0, 0, 0, 0, 0⟩, twin := false, at_ := now, maint := true, done := some true }]

/-- R209: whether an STC passes: at its place in the order its port has a reservation on the granule. -/
def Chan.stcPasses (c : Chan) (e : Entry) : Bool :=
  (rsvAfter c.st.rsv (c.st.rsvEvs.takeWhile (·.idx != some e.idx))).any fun r => r.port == e.gport && r.loc == e.loc

/-- R207: what the reservations may be after a step, each LDR of the port whose data are awaited having recorded one or not. -/
def rsvCases (port : BitVec 9) (ls : List (List Rsv)) (v : RsvEv) : List (List Rsv) :=
  let bad := if v.op = .ldr ∧ v.done = none ∧ v.port = port then ls.map ({ v with done := some false } : RsvEv).apply else []
  (ls.map v.apply ++ bad).eraseDups

/-- R207, R209: whether an STC passes is known: it does not depend on an older LDR without its data, of its port, or of any port
where one may be evicted. -/
def Chan.stcKnown (c : Chan) (e : Entry) : Bool :=
  let vs := c.st.rsvEvs.takeWhile (·.idx != some e.idx)
  let mayEvict := decide (32 < c.st.rsv.length + vs.countP (·.op == .ldr))
  let holds := fun (l : List Rsv) => l.any fun r => r.port == e.gport && r.loc == e.loc
  if mayEvict then vs.all fun v => v.op != .ldr || v.done.isSome
  else (vs.foldl (rsvCases e.gport) [c.st.rsv]).all fun l => holds l == c.stcPasses e

/-! ## Ends of entries, and age (R125, R126) -/

/-- R125, R183: the entry becomes FREE; one that has not been performed has stored nothing. An MRD and a write that is dropped
(R222) pass through RESP or LB, and have no response. -/
def Chan.freeEntry (c : Chan) (now : Nat) (i : EntryIx) : Chan :=
  match c.entry? i with
  | none => c
  | some e =>
    let c := c.decideRsv now i false
    (c.updSt fun x => { x with tt := x.tt.filter (·.idx ≠ i), freeAt := if e.maint then x.freeAt else now }).markDepth now e.cls

/-- Every entry of a kind (of a bank) becomes FREE. -/
def Chan.freeAll (c : Chan) (now : Nat) (p : Entry → Bool) : Chan :=
  (c.st.tt.filter p).foldl (fun c e => c.freeEntry now e.idx) c

/-- R126: a maintenance access of this CC, which a request of the same CC precedes in age. -/
def Entry.lateMaint (e : Entry) (now : Nat) : Bool := e.maint && e.at_ == now

/-- R126: the place in the age order of a request that enters in CC `now`. -/
def Chan.reqAge (c : Chan) (now : Nat) : Nat :=
  match c.st.tt.find? (·.lateMaint now) with
  | some e => e.age
  | none => c.st.ageCtr

/-! ## Operations on a line -/

/-- R202, R203: the value an AMO stores, if any: `a` is the operand or the comparand. -/
def amoResult {w : Nat} (op : BitVec 4) (m a swp : BitVec w) : Option (BitVec w) :=
  if op = 0 then some (m + a)
  else if op = 1 then some a
  else if op = 2 then some (m &&& a)
  else if op = 3 then some (m ||| a)
  else if op = 4 then some (m ^^^ a)
  else if op = 5 then some (if m.toInt ≤ a.toInt then m else a)
  else if op = 6 then some (if m.toInt ≤ a.toInt then a else m)
  else if op = 7 then some (if m.toNat ≤ a.toNat then m else a)
  else if op = 8 then some (if m.toNat ≤ a.toNat then a else m)
  else if m = a then some swp else none

/-- Operand size in bits. -/
def aszBits (asz : BitVec 2) : Nat := if asz = 0 then 32 else if asz = 1 then 64 else 128

/-- Bit offset in the (pair) line of the operand of an LDR, STC or AMO. -/
def Entry.bitOff (e : Entry) : Nat := 8 * (e.off.toNat + if e.half then 64 else 0)

/-- Replace `w` bits of a line. -/
def putBits {w : Nat} (line : PairLine) (off : Nat) (v : BitVec w) : PairLine :=
  (line &&& ~~~(((BitVec.allOnes w).setWidth 1024) <<< off)) ||| ((v.setWidth 1024) <<< off)

/-- What an entry does to a line it holds: the new line if it stores, and its answer (status, dsz, data). -/
structure LineOp where
  store : Option PairLine
  status : BitVec 4
  dsz : BitVec 3
  data : BitVec 1024
  deriving DecidableEq, Repr

/-- R202, R203, R81. -/
def Entry.amoOp (e : Entry) (line : PairLine) : LineOp :=
  let w := aszBits e.asz
  let m := line.extractLsb' e.bitOff w
  let a := e.data.extractLsb' 0 w
  let new := amoResult e.aop m a (e.data.extractLsb' w w)
  { store := new.map fun v => putBits line e.bitOff v,
    status := if new.isSome then 0 else 1,
    dsz := if e.nr then 0 else if w = 128 then 2 else 1,
    data := if e.nr then 0 else m.setWidth 1024 }

/-- R209. -/
def Entry.stcOp (e : Entry) (pass : Bool) (line : PairLine) : LineOp :=
  { store := if pass then some (putBits line e.bitOff (e.data.extractLsb' 0 64)) else none,
    status := if pass then 0 else 1, dsz := 0, data := 0 }

/-- R136, R147: merge of a write under its mask. -/
def Entry.mergeOp (e : Entry) (line : PairLine) : PairLine := mergeBytes line e.data e.mask

/-! ## Responses and ends of entries -/

/-- R38, R147: the channel ports through which an entry is answered: the leader's, the follower's. A read of one half goes
through that half's port, an RD128 through both; atomics through the leader's (log entry 53, DEDUCED). -/
def Entry.viaF (e : Entry) : Bool := e.twin && (e.kind == .rd128 || (e.half && (e.kind == .rd64 || e.kind == .ldr)))
def Entry.viaL (e : Entry) : Bool := e.kind == .rd128 || !e.viaF

/-- R125: the entry is answered when it is done. -/
def Entry.answers (e : Entry) : Bool :=
  match e.kind with
  | .rd64 | .rd128 | .ldr | .amo | .stc => true
  | .hint | .wr64 | .wrp | .mrd | .mwr | .fenceW | .fenceAll | .cfgRd | .cfgWr | .srEnter => false

/-- R133: slots of a port's response queue that are taken or reserved. -/
def Chan.respUsed (c : Chan) (follower : Bool) : Nat :=
  (if follower then c.st.respqF else c.st.respq).length +
    c.st.tt.countP fun e => e.slot && (if follower then e.viaF else e.viaL)

/-- R133: a slot is reserved for the entry, or can be, at each port that it uses. -/
def Chan.respRoom (c : Chan) (e : Entry) : Bool :=
  e.slot || ((!e.viaL || decide (c.respUsed false < 32)) && (!e.viaF || decide (c.respUsed true < 32)))

/-- R38, R133: a response joins the queue of its port, an RD128 in two halves. -/
def Chan.queueResp (c : Chan) (e : Entry) (r : Resp) : Chan :=
  if e.kind == .rd128 then
    c.updSt fun x => { x with
      respq := x.respq ++ [{ r with part := some false, dsz := 3, data := (r.data.setWidth 512).setWidth 1024 }]
      respqF := x.respqF ++ [{ r with part := some true, dsz := 3, data := r.data >>> 512 }] }
  else if e.viaF then c.updSt fun x => { x with respqF := x.respqF ++ [r] }
  else c.updSt fun x => { x with respq := x.respq ++ [r] }

/-- R133: the response waits at the channel port; the entry is in RESP. -/
def Chan.respond (c : Chan) (e : Entry) (opc : BitVec 6) (status : BitVec 4) (poison : Bool) (dsz : BitVec 3)
    (data : BitVec 1024) : Chan :=
  let r : Resp :=
    { idx := e.idx, mod := portMod e.gport, epoch := e.epoch, port := portLocal e.gport, tag := e.tag, opc := opc,
      status := status, poison := poison, dsz := dsz, data := if poison then 0 else data, cls := e.cls, at_ := e.at_ }
  (c.updEntry e.idx fun x => { x with st := .resp, poison := poison, slot := false }).queueResp e r

/-- R183: a write, an MWR or an MRD ends. -/
def Chan.finish (c : Chan) (now : Nat) (e : Entry) : Chan := (c.freeEntry now e.idx).markLat now e.cls (now - e.at_)

/-- R81, R83, R207: the answer of a read from the line's data. -/
def Chan.answerRead (c : Chan) (now : Nat) (e : Entry) (line : PairLine) (poison : Bool) : Chan :=
  match e.kind with
  | .rd128 => c.respond e opRDATA 0 poison 4 line
  | .ldr => (c.decideRsv now e.idx !poison).respond e opRDATA 0 poison 1 ((line.extractLsb' e.bitOff 64).setWidth 1024)
  | .rd64 | .hint | .wr64 | .wrp | .stc | .amo | .mrd | .mwr | .fenceW | .fenceAll | .cfgRd | .cfgWr | .srEnter =>
    c.respond e opRDATA 0 poison 3 (((line >>> (if e.half then 512 else 0)).setWidth 512).setWidth 1024)

/-- R205, R222: an operation on a line that reads uncorrectable or as stored poison. -/
def Chan.poisonedOp (c : Chan) (now : Nat) (e : Entry) : Chan :=
  match e.kind with
  | .amo => (c.decideRsv now e.idx false).respond e opAMOR 1 true (e.amoOp 0).dsz 0
  | .stc =>
    ((c.decideRsv now e.idx false).updCnt fun k => { k with stcFail := k.stcFail + 1 }).respond e opSTCR 1 true 0 0
  | .wr64 | .wrp | .rd64 | .rd128 | .ldr | .hint | .mrd | .mwr | .fenceW | .fenceAll | .cfgRd | .cfgWr | .srEnter =>
    (c.updCnt fun k => { k with poisonDrop := k.poisonDrop + 1 }).finish now e

/-- What a finished write means beyond its data: reservations (R210), counters (R223), a repair or a release. -/
def Chan.writeEffects (c : Chan) (now : Nat) (e : Entry) : Chan :=
  let c := c.decideRsv now e.idx true
  match e.purpose with
  | .host | .scrubInit | .init => c
  | .demandWb => c.updCnt fun k => { k with dscrub := k.dscrub + 1 }
  | .remapRelease i => { c with remap := upd c.remap i fun _ => {} }
  | .repairWr _ => { c with repair := c.repair.map fun r => { r with done := r.done + 1 } }
  | .remapFill _ | .scrubRd | .scrubWb | .requalRd _ _ _ | .requalWb | .repairRd _ => c

/-- R135, R202, R209, R136: an AMO, STC or merge performed on good data; answers the line's new content, if stored. -/
def Chan.performOp (c : Chan) (now : Nat) (e : Entry) (line : PairLine) : Option PairLine × Chan :=
  match e.kind with
  | .amo =>
    let r := e.amoOp line
    let c := c.updCnt fun k => { k with amo := k.amo + 1 }
    let c := c.decideRsv now e.idx r.store.isSome
    (r.store, c.respond e opAMOR r.status false r.dsz r.data)
  | .stc =>
    let pass := c.stcPasses e
    let r := e.stcOp pass line
    let c := c.updCnt fun k =>
      { k with amo := k.amo + 1, stcPass := if pass then k.stcPass + 1 else k.stcPass,
               stcFail := if pass then k.stcFail else k.stcFail + 1 }
    let c := c.decideRsv now e.idx pass
    (r.store, c.respond e opSTCR r.status false 0 0)
  | .wr64 | .wrp | .mwr | .rd64 | .rd128 | .ldr | .hint | .mrd | .fenceW | .fenceAll | .cfgRd | .cfgWr | .srEnter =>
    (some (e.mergeOp line), (c.writeEffects now e).finish now e)

/-! ## Scrub accounting (R226, R230) -/

/-- R103, R230: the host address of a line of a channel (of the codeword's first byte in a joined pair). -/
def Map.hostAddr (m : Map) (n : Ch) (l : Loc) : Nat :=
  let g := 2 * m.gran.toNat
  let twin := m.isJoined n
  let col := l.col.toNat
  let q := 2 * (col % 2 ^ g)
  let chc := col / 2 ^ g
  let cl := if twin then q % 2 ^ g else col % 2 ^ g
  let base := m.slots.findIdx (· == n)
  let s := if twin then base + q / 2 ^ g else base
  let row := l.row.toNat
  let s := if m.xorActive then s ^^^ (((row % 64) ^^^ (row / 64 % 64)) &&& 0x3E) else s
  let b := 4 * l.ba.toNat + l.bg.toNat
  let b := if m.xorBank then b ^^^ ((row % 16) ^^^ (row / 16 % 16)) else b
  64 * (((((((l.sid.toNat * m.nrow + row) * 2 ^ (4 - g) + chc) * 16 + b) * 2 + l.pc.toNat) * m.nslot + s) * 2 ^ g) + cl)

/-- Count one at a position of a histogram held as a rising association list. -/
def histAdd (h : List (Nat × Nat)) (p : Nat) : List (Nat × Nat) :=
  match h with
  | [] => [(p, 1)]
  | x :: r => if x.1 < p then x :: histAdd r p else if x.1 = p then (p, x.2 + 1) :: r else (p, 1) :: x :: r

/-- The classes of R219. -/
inductive RsClass where
  | clean | corrected | erasureOnly | storedPoison | uncorrectable
  deriving DecidableEq, Repr

/-- The outcome of a decode: class, data of the line, positions of the symbols corrected. -/
structure RsRes where
  cls : RsClass
  data : PairLine
  fixed : List Nat
  deriving DecidableEq, Repr

/-- R219: the word gives data. -/
def RsClass.good : RsClass → Bool
  | .clean | .corrected | .erasureOnly => true
  | .storedPoison | .uncorrectable => false

/-- R230: a codeword of a scrub pass is counted. -/
def Scrub.count (b : Scrub) (twin : Bool) (addr : Nat) (r : RsRes) : Scrub :=
  let b := { b with scanned := b.scanned + 1 }
  let hist := fun (b : Scrub) =>
    if twin then { b with hist144 := r.fixed.foldl histAdd b.hist144 }
    else { b with hist72 := r.fixed.foldl histAdd b.hist72 }
  match r.cls with
  | .clean => b
  | .corrected => hist { b with correctable := b.correctable + 1 }
  | .erasureOnly => hist { b with erasureOnly := b.erasureOnly + 1 }
  | .storedPoison => b
  | .uncorrectable =>
    { b with uncorrectable := b.uncorrectable + 1,
             firstUe := some (match b.firstUe with
               | none => addr
               | some a => min a addr),
             lastUe := some (match b.lastUe with
               | none => addr
               | some a => max a addr) }

/-! ## New entries and their place (R122 to R131) -/

/-- The lowest free entry number (log entry 6, DESIGN CHOICE). -/
def Chan.freeIdx (c : Chan) : EntryIx :=
  ((List.finRange 256).find? fun i => !c.st.tt.any (·.idx == i) && !c.noticed i).getD 0

/-- R122, R126: an entry is added, youngest in age, in CHAIN until placed. -/
def Chan.addEntry (c : Chan) (now : Nat) (e : Entry) : Chan :=
  let a := c.st.ageCtr
  (c.updSt fun x => { x with tt := x.tt ++ [{ e with age := a, st := .chain }], ageCtr := a + 1 }).markDepth now e.cls

/-- R126: a request takes its entry, older than the maintenance accesses that entered in the same CC: these, and what was
asked for after them, move on by one; those to the request's line wait behind it. -/
def Chan.addRequest (c : Chan) (now : Nat) (e : Entry) : Chan :=
  let a := c.reqAge now
  let later := fun (x : Entry) =>
    { x with age := x.age + 1, st := if x.loc == e.loc && (x.st == .wait || x.st == .hit) then .chain else x.st }
  let new : Entry := { e with age := a, st := .chain }
  (c.updSt fun x => { x with
    tt := x.tt.filter (fun o => decide (o.age < a)) ++ new :: (x.tt.filter fun o => decide (a ≤ o.age)).map later
    lb := x.lb.map fun y => if a ≤ y.wbAge then { y with wbAge := y.wbAge + 1 } else y
    ageCtr := x.ageCtr + 1 }).markDepth now e.cls

/-- R50, R171: a maintenance access of a channel. -/
def Chan.maintEntry (c : Chan) (now : Nat) (twin : Bool) (kind : RKind) (l : Loc) (p : Purpose) (data : PairLine)
    (poison : Bool) : Entry :=
  { idx := c.freeIdx, st := .chain, kind := kind, cls := c.cfg.maintCls, gport := 0x1FF, tag := 0, loc := l, twin := twin,
    maint := true, arr := BitVec.ofNat 16 now, data := data, mask := fullMask twin, purpose := p, at_ := now,
    poison := poison }

/-- R134, R222: a line is written in a slot: the slot is dirty in the class of the entry that stores, and good, unless what is
stored is a flagged line of a repair copy (R235). -/
def Chan.lbStore (c : Chan) (i : Fin 16) (now : Nat) (cls : Option (BitVec 4)) (d : PairLine) (poison : Bool) : Chan :=
  c.updLb i fun s => { s with data := d, poison := poison, dirty := true, lastUse := now, wb := false,
                              cls := match cls with
                                | some k => some k
                                | none => s.cls }

/-- R183, R232: the MRD of a remap fill ends, and the MWR of the fill takes the entry that it frees, served from the spare line
(log entry 57, DEDUCED); what chains behind the fill goes on waiting (R231). -/
def Chan.fillEntry (c : Chan) (now : Nat) (e : Entry) (i : Fin 16) (line : PairLine) (poison : Bool) : Chan :=
  let c := c.finish now e
  let w := c.maintEntry now e.twin .mwr e.loc (.remapFill i) line poison
  let c := ((c.addEntry now w).updEntry w.idx fun x => { x with st := .sram }).updRsv now (· ++ [w.rsvEv w.maintRsvOp])
  { c with remap := upd c.remap i fun r => { r with data := line } }

/-- R131, R134: a read is answered without a column command. -/
def State.forward (s : State) (n : Ch) (e : Entry) (line : PairLine) (poison : Bool) : State :=
  let now := s.now
  let s := s.updChan n fun c => c.updCnt fun k =>
    { k with fwd := k.fwd + 1, poisonRd := if poison && e.isDemand then k.poisonRd + 1 else k.poisonRd }
  let cls : RsClass := if poison then .storedPoison else .clean
  match e.kind with
  | .mrd =>
    match e.purpose with
    | .scrubRd =>
      let addr := s.map.hostAddr n e.loc
      (s.updScrub fun b => b.count e.twin addr { cls := cls, data := line, fixed := [] }).updChan n (·.finish now e)
    | .repairRd i =>
      s.updChan n fun c => { c.finish now e with
        repair := c.repair.map fun r => { r with done := r.done + 1, buf := r.buf.set i.val (line, poison) } }
    | .remapFill i => s.updChan n fun c => c.fillEntry now e i line poison
    | .host | .scrubWb | .scrubInit | .init | .demandWb | .requalRd _ _ _ | .requalWb | .remapRelease _ | .repairWr _ =>
      s.updChan n (·.finish now e)
  | .rd64 | .rd128 | .ldr | .hint | .wr64 | .wrp | .stc | .amo | .mwr | .fenceW | .fenceAll | .cfgRd | .cfgWr
  | .srEnter => s.updChan n fun c => c.answerRead now e line poison

/-- R298: the pseudo-channel is held by a pause. -/
def Chan.heldOff (c : Chan) (p : Pc) : Bool := (c.pc.get p).pause == .measure || (c.pc.get p).pause == .apply

/-- R125, R144: WAIT or HIT by the open row; HOLD while the pseudo-channel is offline. -/
def Chan.rowState (c : Chan) (e : Entry) : EState :=
  if c.heldOff e.loc.pcIx then .hold else if (c.bank e.loc.bank).row == some e.loc.row then .hit else .wait

/-- Whether the entry goes to the spare line of a remap entry in use (R231); the copies of a fill, a release or a repair
work on the core dies. -/
def Chan.spareOf (c : Chan) (e : Entry) : Option (Fin 16) :=
  match e.purpose with
  | .remapFill _ | .remapRelease _ | .repairRd _ | .repairWr _ => none
  | .host | .scrubRd | .scrubWb | .scrubInit | .init | .demandWb | .requalRd _ _ _ | .requalWb =>
    match c.remapOf e.loc with
    | none => none
    | some i => if (c.remap.get i).st == .filling then none else some i

/-- R125, R131, R134, R136, R231: the state of an entry that no older entry to its line holds back: to SRAM also from CHAIN,
in which R231 makes it wait for the fill of its spare line, and to HOLD by WAIT. -/
def State.placeFree (s : State) (n : Ch) (e : Entry) : State :=
  let c := s.chan.get n
  let now := s.now
  if e.isVoid then s.updChan n (·.finish now e)
  else
    match c.spareOf e with
    | some _ => s.updChan n fun c => c.updEntry e.idx fun x => { x with st := .sram }
    | none =>
      match c.lbOf e.loc, e.purpose with
      | none, _ | some _, .remapRelease _ => s.updChan n fun c => c.updEntry e.idx fun x => { x with st := c.rowState e }
      | some i, _ =>
        if e.isRead then
          if e.answers && !c.respRoom e then s
          else
          let s := s.updChan n fun c => c.updLb i fun x => { x with lastUse := now }
          s.forward n e (c.st.lb.get i).data (c.st.lb.get i).poison
        else
          s.updChan n fun c =>
            (c.updLb i fun x => { x with lastUse := now, wb := false }).updEntry e.idx fun x =>
              { x with st := .lb, lb := BitVec.ofNat 4 i.val }

/-- R233: a release copies what the spare line holds when its turn has come. -/
def Chan.copied (c : Chan) (e : Entry) : Entry :=
  match e.purpose with
  | .remapRelease i => { e with data := (c.remap.get i).data, poison := (c.remap.get i).st == .poisoned }
  | .host | .scrubRd | .scrubWb | .scrubInit | .init | .demandWb | .requalRd _ _ _ | .requalWb | .remapFill _ | .repairRd _
  | .repairWr _ => e

/-- R131: an unissued write whose data a younger read can be answered with; a release has its data when its turn has come
(R233; log entry 53, DEDUCED). -/
def Entry.forwards (o : Entry) : Bool :=
  o.isWrite && (o.waits || o.st == .hold || (o.st == .chain && (match o.purpose with
    | .remapRelease _ => false
    | .host | .scrubRd | .scrubWb | .scrubInit | .init | .demandWb | .requalRd _ _ _ | .requalWb | .remapFill _ | .repairRd _
    | .repairWr _ => true)))

/-- R129, R131: an entry in CHAIN is looked at again. -/
def State.place (s : State) (n : Ch) (i : EntryIx) : State :=
  let c := s.chan.get n
  match c.entry? i with
  | none => s
  | some e =>
    if e.st != .chain then s
    else
      let older := c.olderSame e
      match older.getLast? with
      | none => s.placeFree n e
      | some o =>
        if e.isRead && (e.purpose == .host || e.purpose == .scrubRd) && o.forwards && (!e.answers || c.respRoom e) then
          s.forward n e (c.copied o).data (c.copied o).poison
        else s

/-- R129: every entry in CHAIN is looked at again, oldest first. -/
def State.rechain (s : State) (n : Ch) : State :=
  ((s.chan.get n).st.tt.filter (·.st == .chain)).foldl (fun s e => s.place n e.idx) s

/-- R125: WAIT and HIT follow the open rows. -/
def Chan.rehit (c : Chan) : Chan :=
  c.updSt fun x => { x with tt := x.tt.map fun e => if e.waits then { e with st := c.rowState e } else e }

/-- R143: HINTs of a bank are dropped when another entry targets it. -/
def Chan.dropHints (c : Chan) (now : Nat) (b : BankIx) : Chan := c.freeAll now fun e => e.kind == .hint && e.loc.bank == b

/-- R50, R122, R127: a maintenance access enters, if its class may take an entry. -/
def State.addMaint (s : State) (n : Ch) (kind : RKind) (l : Loc) (p : Purpose) (data : PairLine) (poison : Bool) : State :=
  let c := s.chan.get n
  let e := c.maintEntry s.now (s.map.isJoined n) kind l p data poison
  let s := s.updChan n fun c =>
    let c := (c.dropHints s.now l.bank).addEntry s.now e
    if e.maintRsvOp == .touch then c else c.updRsv s.now (· ++ [e.rsvEv e.maintRsvOp])
  s.place n e.idx

/-! ## Bursts to and from the core dies (R282) -/

/-- The burst of a line of one channel reaches its die: the array, the write buffer of a training mode, or nothing. -/
def State.burstIn (s : State) (n : Ch) (l : Loc) (d : Line) (poison : Bool) : State :=
  match ((s.chan.get n).dies.get l.sidIx).trainMode with
  | 2 => s.updChan n fun c => { c with dies := upd c.dies l.sidIx fun x => { x with buf := upd x.buf l.pcIx fun _ => some (d, poison) } }
  | 3 => s
  | _ => if poison then s.writePoison n l d else s.writeLine n l d

/-- The WR of a line of engine n: both channels of a joined pair (R108). -/
def State.burstWrite (s : State) (n : Ch) (twin : Bool) (l : Loc) (d : PairLine) (poison : Bool) : State :=
  let s := s.burstIn n l (d.setWidth 512) poison
  if twin then s.burstIn (partner n) l ((d >>> 512).setWidth 512) poison else s

/-- What a die returns for an RD: the data symbols and the stored-poison mark of a codeword; none where the burst is none. -/
def State.burstOf (s : State) (n : Ch) (l : Loc) : Option (Line × Bool) :=
  let d := (s.chan.get n).dies.get l.sidIx
  match d.trainMode with
  | 1 => none
  | 2 => d.buf.get l.pcIx
  | 3 => none
  | _ => some (s.readLine n l, s.isPoison n l)

/-- The codeword that an RD returns: data and stored-poison mark; none where a training mode returns another burst. -/
def State.burstRead (s : State) (n : Ch) (twin : Bool) (l : Loc) : Option (PairLine × Bool) :=
  match s.burstOf n l with
  | none => none
  | some (a, p) =>
    if twin then (s.burstOf (partner n) l).map fun (b, q) => (b.append a, p || q) else some (a.setWidth 1024, p)

/-- R282: the data of the read pattern, and what its check lanes carry beyond the code of these data. -/
def State.patternRead (s : State) (n : Ch) (twin : Bool) (l : Loc) : Option (PairLine × List SymErr) :=
  let die := fun (k : Ch) => (s.chan.get k).dies.get l.sidIx
  let lanes := fun (k : Ch) => (s.chan.get k).pc.get l.pcIx
  let own := die n
  let other := die (partner n)
  if own.trainMode != 1 || (twin && other.trainMode != 1) then none
  else
    let line : PairLine := if twin then (other.patternLine (lanes (partner n))).append (own.patternLine (lanes n)) else (own.patternLine (lanes n)).setWidth 1024
    let syms := (List.range (if twin then 128 else 64)).map fun k => (line.extractLsb' (8 * k) 8).toNat
    let base := if twin then 128 else 64
    let errs := (List.range (rsChecks twin)).map fun k =>
      let got := if twin && decide (8 ≤ k) then other.patternByte (lanes (partner n)) (64 + (k - 8)) else own.patternByte (lanes n) (64 + k)
      ({ pos := base + k, xor := got ^^^ BitVec.ofNat 8 ((rsCheck twin syms).getD k 0) } : SymErr)
    some (line, errs)

/-! ## Stores at the end of a write (R125, R210, R222, R223, R233, R235) -/

/-- The full write of an entry to its spare line or to the core dies. -/
def State.putLine (s : State) (n : Ch) (e : Entry) : State :=
  match (s.chan.get n).spareOf e with
  | none =>
    let e := (s.chan.get n).copied e
    s.burstWrite n e.twin e.loc e.data e.poison
  | some i => s.updChan n fun c => { c with remap := upd c.remap i fun r => { r with data := e.data, st := .live } }

/-- R230: an Initialise pass counts each codeword written. -/
def State.initCounted (s : State) (e : Entry) : State :=
  if e.purpose == .scrubInit then s.updScrub fun b => { b with scanned := b.scanned + 1 } else s

/-- R233, R380: the copy of a release has been written: its record is voided, and its command is answered. -/
def State.releaseDone (s : State) (n : Ch) (e : Entry) : State :=
  match s.mgmt.fw.remapJobs.find? fun j => j.n == n && j.release && e.purpose == .remapRelease j.i with
  | none => s
  | some j =>
    let s := s.voidRecord (recWord0 recREMAP n e.loc) (recWord1 e.loc.col 0 0)
    (s.answerTo j.by_ stOK 0).updFw fun f => { f with remapJobs := f.remapJobs.filter (· != j) }

/-- R465: a write that leaves COLWR: its data slot is kept for 16 ns after its burst. -/
def Chan.keepData (c : Chan) (now : Nat) (e : Entry) : Chan :=
  c.updSt fun x => { x with kept := x.kept.filter (fun k => decide (now ≤ k.2 + 16)) ++ if e.st == .colwr then [(e, now)] else [] }

/-- R125: a write entry whose data have reached their place is done. -/
def State.writeDone (s : State) (n : Ch) (e : Entry) : State :=
  let now := s.now
  let s := s.updChan n fun c => c.keepData now e
  let s := (s.putLine n e).initCounted e
  ((s.updChan n fun c => (c.writeEffects now e).finish now e).rechain n).releaseDone n e

/-- R134, R223: a slot's write-back is carried out. A slot whose word has become uncorrectable is written as stored poison (log entry
83, DESIGN CHOICE). -/
def State.writeBack (s : State) (n : Ch) (i : Fin 16) : State :=
  let x := (s.chan.get n).st.lb.get i
  match x.line with
  | none => s
  | some l =>
    let now := s.now
    let tm := s.tim n
    let twin := s.map.isJoined n
    let s := s.burstWrite n twin l x.data x.poison
    s.updChan n fun c =>
      let c := if x.cls.isNone then c.updCnt fun k => { k with dscrub := k.dscrub + 1 } else c
      c.updLb i fun y => { y with dirty := false, wb := false, cls := none, wbAt := some now, wbEnd := now + tm.wl + 18 }

/-! ## Draining a channel to the core dies (R198, R199, R434, R474) -/

/-- Every dirty slot is written back. -/
def State.flushLb (s : State) (n : Ch) : State :=
  (List.finRange 16).foldl (fun s i => if ((s.chan.get n).st.lb.get i).dirty then s.writeBack n i else s) s

/-- R199: a write entry is carried out at once, whatever its state: whole, or merged under its mask. -/
def State.forceWrite (s : State) (n : Ch) (e : Entry) : State :=
  if e.isVoid then s
  else if e.isWrite then s.putLine n e
  else
    match e.kind with
    | .wr64 | .wrp =>
      match (s.chan.get n).spareOf e with
      | some i =>
        s.updChan n fun c => { c with remap := upd c.remap i fun r =>
          if r.st == .live then { r with data := e.mergeOp r.data } else r }
      | none =>
        if s.storedPoison n e.twin e.loc then
          s.updChan n fun c => c.updCnt fun k => { k with poisonDrop := k.poisonDrop + 1 }
        else s.writeStored n e.twin e.loc (e.mergeOp (s.readStored n e.twin e.loc))
    | .rd64 | .rd128 | .ldr | .hint | .stc | .amo | .mrd | .mwr | .fenceW | .fenceAll | .cfgRd | .cfgWr | .srEnter => s

/-- R23, R199: dirty slots, then every accepted write in age order, reach the core dies. -/
def State.flushChan (s : State) (n : Ch) : State :=
  let s := s.flushLb n
  (s.chan.get n).st.tt.foldl (fun s e => s.forceWrite n e) s

end Sys2Proof.Machine
end

