-- ==== Sys2Proof/Machine/Link.lean ====
section
/-! DEFINITION. The flit layer, module link reset and link training (chapter 02, R56 to R71, R95 to R98). -/

namespace Sys2Proof.Machine

/-! ## Module link reset (R96) -/

/-- R24, R96 steps 2 and 3: the module's outstanding tags become void, requests that have not left it are discarded
but for accepted writes, and the credits, sequence numbers and slot stream return to their link-up values. Messages
already received and not yet carried out stay in the inbox. A retrain of another module whose WACK is still unsent is
dropped with the rest (R98; log entry 55, DESIGN CHOICE). -/
def Hlm.settle (h : Hlm) : Hlm :=
  { h with
    ingress := [], fences := [], cfgq := [], errs := [], txq := [], evq := [], tags := [], srTag := none,
    retrains := [], halves := [], posted := h.posted.map fun r => { r with held := false },
    flit := { inbox := h.flit.inbox, last := h.flit.last },
    crRead := 512, crWrite := 256, crCtrl := 16, dueRead := 0, dueWrite := 0, dueCtrl := 0 }

/-- R77, R96: the same, but the messages received before the reset that still wait to be checked are checked against the
tags and credits they arrived under. -/
def Hlm.void (h : Hlm) : Hlm :=
  if h.flit.inbox.isEmpty then h.settle
  else { h.settle with tags := h.tags, crRead := h.crRead, crWrite := h.crWrite, crCtrl := h.crCtrl }

/-- A link that ends at once, with everything in the module but the posted writes (R48, R434). -/
def Hlm.linkEnd (h : Hlm) : Hlm :=
  { h.settle with link := if h.link == .unusable then .unusable else .down, epoch := h.epoch + 1, flit := { last := h.flit.last } }

/-- R26, R96: a reset can start: the module is powered and no reset of it or of the block is in progress; one that finds
such a reset is absorbed. R49: nothing starts after a loss of the reference clock (log entry 54, DEDUCED). -/
def State.canReset (s : State) (m : Mod) : Bool :=
  let l := (s.hlm.get m).link
  (l == .active || l == .training || l == .down || l == .parked) && s.modOn m && !s.pwr.lossHold &&
    match s.boot.ph with
    | .off => false
    | .cold k => decide (9 ≤ k)
    | .warm k => decide (5 ≤ k)
    | .up => true

/-- R49, R57, R308, R431, R434: a link may train: the module is powered and clocked, and the boot has come to training. -/
def State.linkOk (s : State) (m : Mod) : Bool :=
  s.modOn m && s.clk.pllLock && s.pwr.lossSeq.isNone && !s.pwr.lossHold &&
    (match s.boot.ph with
      | .off => false
      | .cold k => decide (8 ≤ k)
      | .warm k => decide (4 ≤ k)
      | .up => true) &&
    match s.pwr.state with
    | .imago => true
    | .toPupa | .toChrysalis => s.pwr.from_ == .imago && !s.pwr.committed
    | .pupa | .chrysalis | .chrysMgmt | .waking => false

/-- R96, R200, R426, R314: a module link reset starts. -/
def State.linkReset (s : State) (m : Mod) : State :=
  if s.canReset m then
    let s := s.updHlm m fun h =>
      { h.void with link := .reset, linkResets := h.linkResets + 1, epoch := h.epoch + 1, drained := false }
    let now := s.now
    let s := s.mapChan fun _ c => c.noteRsv now .reset (BitVec.ofNat 9 (gport m 0).val)
    let s := s.updLog fun l => { l with pops := l.pops.filter fun a => match a.org with
      | .inband m' _ => m' ≠ m
      | .sideband _ => true
      | .debug _ => true
      | .direct => true }
    if s.pwr.abortable then
      let (c, s) := s.drawNat 4
      s.abortEntry (BitVec.ofNat 4 (c + 1))
    else s
  else s

/-- R95: a protocol error is counted and starts a module link reset. -/
def State.protoError (s : State) (m : Mod) : State :=
  (s.updHlm m fun h => { h with proto := satInc h.proto }).linkReset m

/-! ## Replay (R67 to R72) -/

/-- R67: forget the unacknowledged flits that an ack covers. -/
def FlitState.acked (f : FlitState) (ack : BitVec 12) : FlitState :=
  if f.replay.any (·.seq == ack) then
    let rest := (f.replay.dropWhile (·.seq != ack)).tail
    { f with replay := rest, replayAt := match f.replayAt with
      | none => none
      | some q => if rest.any (·.seq == q) then some q else (rest.head?).map (·.seq) }
  else f

/-- R69, R71, R72: the transmitter replays from the oldest unacknowledged flit, or resets the link when that flit has
been sent 8 times: the NAK or timer that finds it unacknowledged after its 8th sending starts the reset, and not that
sending itself (log entry 55, DESIGN CHOICE). The reset is reported as a retry event, unless the open window has raised one or the
event is disabled (R471; log entry 86, DEDUCED). -/
def State.startReplay (s : State) (m : Mod) : State :=
  let h := s.hlm.get m
  match h.flit.replay with
  | [] => s
  | e :: _ =>
    if 8 ≤ e.sends then
      let w := (h.retryWin.filter fun w => decide (s.now < w.openedAt + w.length)).getD
        { openedAt := s.now, length := 1000000, thresh := h.retryThresh.toNat, count := 0 }
      (if decide (w.count < w.thresh) && s.canReset m then s.raise (evRetry m) 1 (BitVec.ofNat 24 w.thresh) (BitVec.ofNat 32 w.count)
       else s).linkReset m
    else
      let (w, hit) := countIn h.retryWin s.now 1000000 h.retryThresh.toNat
      let s := s.updHlm m fun h =>
        { h with flit := { h.flit with replayAt := some e.seq }, replayCnt := satInc h.replayCnt, retryWin := some w }
      if hit then s.raise (evRetry m) 1 (BitVec.ofNat 24 w.thresh) (BitVec.ofNat 32 w.count) else s

/-- R68: the ack, ackv and nak of a flit whose CRC is good. -/
def State.flitControl (s : State) (m : Mod) (fh : FlitHdr) : State :=
  let s := if fh.ackv then s.updHlm m fun h => { h with flit := h.flit.acked fh.ack } else s
  if fh.nak then s.startReplay m else s

/-- R68: ask for a replay in the next flit, unless a NAK was sent within the last 256 ns. -/
def State.wantNak (s : State) (m : Mod) : State :=
  s.updHlm m fun h =>
    let free := match h.flit.nakSentAt with
      | none => true
      | some t => decide (t + 256 ≤ s.now)
    if free then { h with flit := { h.flit with nakPending := true } } else h

/-- R63, R65: an accepted DATA flit's slots join the slot stream. -/
def State.acceptSlots (s : State) (m : Mod) (fh : FlitHdr) (slots : List (BitVec 64)) : State :=
  let h := s.hlm.get m
  let p := parseSlots h.flit.rxPart fh.fhs slots
  let s := s.updHlm m fun h =>
    { h with flit := { h.flit with rxNext := h.flit.rxNext + 1, ackv := true, nakSentAt := none, rxPart := p.part,
                                   inbox := h.flit.inbox ++ p.msgs } }
  if p.bad then s.protoError m else s

/-- R68. -/
def State.flitReceive (s : State) (m : Mod) (flit : BitVec 2048) : State :=
  let h := s.hlm.get m
  if h.link != .active then s
  else if !flitCrcOk flit then s.wantNak m
  else
    let fh := parseFlitHdr flit
    if fh.ftype = 2 then s.flitControl m fh
    else if fh.ftype = 1 then
      let behind := (h.flit.rxNext - fh.seq).toNat
      let s := s.flitControl m fh
      if (s.hlm.get m).link != .active then s
      else if behind = 0 then s.acceptSlots m fh (flitSlots flit)
      else if behind ≤ 64 then s
      else s.wantNak m
    else s.protoError m

def execFlitReceive (m : Mod) (flit : BitVec 2048) (s : State) : Host.Outcome State Fault Refusal :=
  .next (s.flitReceive m flit)

/-! ## Transmission (R58, R66, R67, R70) -/

/-- R184: the memory requests whose latency a port marks. -/
def RKind.measured : RKind → Bool
  | .rd64 | .rd128 | .ldr | .wr64 | .wrp | .stc | .amo => true
  | .hint | .mrd | .mwr | .fenceW | .fenceAll | .cfgRd | .cfgWr | .srEnter => false

/-- R191: the youngest older write of the port to the line, if a read is answered with its data, whatever older requests
of the port to the line wait in the ingress queue (log entry 55, DESIGN CHOICE). -/
def Hlm.forwardOf (h : Hlm) (port : BitVec 4) (seq : Nat) (addr : BitVec 40) : Option Rq :=
  match (h.posted.filter fun w => w.port == port && decide (w.seq < seq) && w.addr.toNat / 64 == addr.toNat / 64).getLast? with
  | none => none
  | some w => if w.kind = .wr64 ∨ w.mask = BitVec.allOnes 64 then some w else none

/-- R81, R88, R191: the RDATA of a read answered in the module. -/
def forwardMsg (port : BitVec 4) (tag : BitVec 10) (w : Rq) : OutMsg :=
  { outMsg opRDATA port tag with dsz := 3, data := w.data.setWidth 1024, credit := .read }

/-- R191, R196: requests of a port up to the next fence are released; a read may be answered in the module now. -/
def Hlm.releaseHeld (h : Hlm) (port : BitVec 4) : Hlm :=
  let upTo := (h.fences.find? (·.port == port)).map (·.seq)
  let free := fun (p : BitVec 4) (q : Nat) => p == port && upTo.all fun u => decide (q < u)
  let fw := fun (r : Rq) =>
    if r.held && free r.port r.seq && r.kind == .rd64 then (h.forwardOf r.port r.seq r.addr).map fun w => (r, w) else none
  let hits := h.ingress.filterMap fw
  let open_ := fun (r : Rq) => if free r.port r.seq then { r with held := false } else r
  { h with
    posted := h.posted.map open_,
    ingress := (h.ingress.filter fun r => (fw r).isNone).map open_,
    txq := h.txq ++ hits.map fun x => forwardMsg x.1.port x.1.tag x.2,
    tags := h.tags.map fun t => if hits.any fun x => x.1.seq == t.seq && x.1.port == t.port then { t with ch := none } else t,
    cfgq := h.cfgq.map fun c => if free c.port c.seq then { c with held := false } else c }

/-- R195, R196: a FENCE_DONE is sent: its fence ends, and the requests it held are released. -/
def Hlm.fenceSent (h : Hlm) (o : OutMsg) : Hlm :=
  if o.opc = opFENCE then
    ({ h with fences := h.fences.filter fun f => !(f.done && f.port == o.port && f.tag == o.tag) }).releaseHeld o.port
  else h

/-- What follows from placing the header of a response in a flit: the tag retires (R86), a credit becomes due (R88),
the port's latency mark is updated (R184), the port's CFG access has been answered (R91), a fence ends (R196); a request
on the data path has been answered (R310). -/
def State.headerSent (s : State) (m : Mod) (o : OutMsg) : State :=
  let h := s.hlm.get m
  let rec? := h.tags.find? fun t => t.port == o.port && t.tag == o.tag
  let s := (s.updHlm m fun h =>
    Hlm.fenceSent { h.creditDue o.credit with
      tags := if o.retire then h.tags.filter fun t => !(t.port == o.port && t.tag == o.tag) else h.tags,
      cfgq := if o.retire ∧ (o.opc = opWACK ∨ o.opc = opCFGDATA ∨ o.opc = opERROR) then
                h.cfgq.filter fun c => !(c.started && c.port == o.port && c.tag == o.tag)
              else h.cfgq } o)
  let s := if o.retire && rec?.any (fun t => t.kind != .cfgRd && t.kind != .cfgWr) then s.stir else s
  match rec? with
  | none => s
  | some t =>
    if t.kind.measured && !t.refused && o.opc != opERROR && o.opc != opTHROTTLED then
      let now := s.now
      let v := BitVec.ofNat 32 (min (2 ^ 32 - 1) (now - t.accAt))
      s.updPort (gport m o.port) fun p =>
        { p with hwmLat := BitVec.ofNat 32 (max p.hwmLat.toNat v.toNat), latIn := sampleIn p.latIn now v }
    else s

/-- One packing step: a slot for the flit. Responses go before EVENT messages; where nothing waits the slot is NOP. -/
def State.packSlot (s : State) (m : Mod) : (Bool × BitVec 64) × State :=
  let h := s.hlm.get m
  match h.flit.txSlots with
  | x :: r => (x, s.updHlm m fun h => { h with flit := { h.flit with txSlots := r } })
  | [] =>
    match h.txq with
    | o :: r =>
      let s := s.updHlm m fun h => { h with txq := r, flit := { h.flit with txSlots := (respSlots o).tail } }
      ((true, respHdr o), s.headerSent m o)
    | [] =>
      match h.evq with
      | e :: r =>
        let occ := (s.mgmt.ev.get e.e).occ
        let now := s.now
        ((true, eventSlot e.e e.port occ),
          (s.updEv e.e fun y => { y with lastMsg := some (now, occ) }).updHlm m fun h => { h with evq := r })
      | [] => ((true, 0), s)

def State.packSlots (s : State) (m : Mod) : Nat → List (Bool × BitVec 64) × State
  | 0 => ([], s)
  | n + 1 =>
    let (x, s) := s.packSlot m
    let (r, s) := s.packSlots m n
    (x :: r, s)

/-- R61, R65: the slot of the first header, 31 where none begins. -/
def firstHdr (slots : List (Bool × BitVec 64)) : BitVec 5 :=
  match slots.findIdx? (·.1) with
  | some i => BitVec.ofNat 5 i
  | none => 31

/-- Send a flit: current ack, ackv and nak (R61, R69), CRC (R60); a NAK starts the 256 ns of R68. -/
def State.emit (s : State) (m : Mod) (ftype : BitVec 4) (seq : BitVec 12) (fhs : BitVec 5) (rcr wcr : BitVec 6)
    (ccr : BitVec 4) (slots : BitVec 1920) : State :=
  let f := (s.hlm.get m).flit
  let fh : FlitHdr :=
    { nak := f.nakPending, ackv := f.ackv, ccr := ccr, wcr := wcr, rcr := rcr, fhs := fhs, ftype := ftype,
      ack := if f.ackv then f.rxNext - 1 else 0, seq := seq }
  s.updHlm m fun h =>
    { h with flit := { h.flit with last := some (mkFlit fh slots), nakPending := false,
                                   nakSentAt := if f.nakPending then some s.now else f.nakSentAt } }

/-- R62: an IDLE flit repeats the number of the last DATA flit. -/
def State.emitIdle (s : State) (m : Mod) : State := s.emit m 2 ((s.hlm.get m).flit.txLast.getD 0) 0 0 0 0 0

/-- A new DATA flit (R66, R67, R88). -/
def State.emitNew (s : State) (m : Mod) : State :=
  let (slots, s) := s.packSlots m 30
  let h := s.hlm.get m
  let r := min 63 h.dueRead
  let w := min 63 h.dueWrite
  let c := min 15 h.dueCtrl
  let e : TxFlit :=
    { seq := h.flit.txSeq, fhs := firstHdr slots, rcr := BitVec.ofNat 6 r, wcr := BitVec.ofNat 6 w,
      ccr := BitVec.ofNat 4 c, slots := BitVec.ofNat 1920 (joinSlots (slots.map (·.2))), sends := 1, sentAt := s.now }
  let s := s.updHlm m fun h =>
    { h with crRead := h.crRead + r, crWrite := h.crWrite + w, crCtrl := h.crCtrl + c, dueRead := h.dueRead - r,
             dueWrite := h.dueWrite - w, dueCtrl := h.dueCtrl - c,
             flit := { h.flit with replay := h.flit.replay ++ [e], txSeq := h.flit.txSeq + 1, txLast := some e.seq } }
  s.emit m 1 e.seq e.fhs e.rcr e.wcr e.ccr e.slots

/-- R69: the next flit of a replay in progress. -/
def State.emitReplay (s : State) (m : Mod) (e : TxFlit) (next : Option (BitVec 12)) : State :=
  let s := s.updHlm m fun h =>
    { h with flit := { h.flit with
        replayAt := next,
        replay := h.flit.replay.map fun x => if x.seq == e.seq then { x with sends := x.sends + 1, sentAt := s.now } else x } }
  s.emit m 1 e.seq e.fhs e.rcr e.wcr e.ccr e.slots

/-- R98: a retrain written in-band takes effect once its WACK has been sent. -/
def State.retrainSent (s : State) (m : Mod) : State :=
  let h := s.hlm.get m
  let waits := fun (r : BitVec 4 × BitVec 10 × Mod) => h.tags.any fun x => x.port == r.1 && x.tag == r.2.1
  let s := s.updHlm m fun h => { h with retrains := h.retrains.filter waits }
  (h.retrains.filter fun r => !waits r).foldl (fun s r => s.linkReset r.2.2) s

/-- R58: the next flit time of the module begins: 1 ns after the latest flit at 32 GT/s, 2 ns at 16 GT/s. -/
def State.nextFlit (s : State) (m : Mod) : State :=
  let h := s.hlm.get m
  let s := match h.flitAt with
    | none => s
    | some t => s.advance (t + if h.rate16 then 2 else 1)
  let now := s.now
  s.updHlm m fun h => { h with flitAt := some now }

/-- R58: one flit time of an active link. -/
def State.flitTransmit (s : State) (m : Mod) : State :=
  if (s.hlm.get m).link != .active then s
  else
    let s := s.nextFlit m
    let h := s.hlm.get m
    let again : List TxFlit := match h.flit.replayAt with
      | none => []
      | some q => h.flit.replay.dropWhile (·.seq != q)
    match again with
    | e :: r => s.emitReplay m e (r.head?.map (·.seq))
    | [] =>
      if 64 ≤ h.flit.replay.length then s.emitIdle m
      else if h.flit.txSlots.isEmpty && h.txq.isEmpty && h.evq.isEmpty && h.dueRead == 0 && h.dueWrite == 0
          && h.dueCtrl == 0 then s.emitIdle m
      else (s.emitNew m).retrainSent m

def execFlitTransmit (m : Mod) (s : State) : Host.Outcome State Fault Refusal := .next (s.flitTransmit m)

/-- R69: 256 ns after the oldest unacknowledged flit was sent. -/
def State.replayTimeout (s : State) (m : Mod) : State :=
  let h := s.hlm.get m
  match h.flit.replay with
  | [] => s
  | e :: _ => if h.link == .active then (s.advance (e.sentAt + 256)).startReplay m else s

def execReplayTimeout (m : Mod) (s : State) : Host.Outcome State Fault Refusal := .next (s.replayTimeout m)

/-- R68: the receiver may send a further NAK. -/
def State.nakHoldoffExpiry (s : State) (m : Mod) : State :=
  match (s.hlm.get m).flit.nakSentAt with
  | none => s
  | some t => (s.advance (t + 256)).updHlm m fun h => { h with flit := { h.flit with nakSentAt := none } }

def execNakHoldoffExpiry (m : Mod) (s : State) : Host.Outcome State Fault Refusal := .next (s.nakHoldoffExpiry m)

/-- R72. -/
def State.retryWindowClose (s : State) (m : Mod) : State :=
  match (s.hlm.get m).retryWin with
  | none => s
  | some w => (s.advance (w.openedAt + w.length)).updHlm m fun h => { h with retryWin := none }

def execRetryWindowClose (m : Mod) (s : State) : Host.Outcome State Fault Refusal := .next (s.retryWindowClose m)

/-! ## Link reset and training (R57, R96) -/

def execHostLinkResetRequest (m : Mod) (s : State) : Host.Outcome State Fault Refusal := .next (s.linkReset m)

/-- R57: the rate at which the next training starts, and when. -/
def Hlm.startTraining (h : Hlm) (now : Nat) : Hlm := { h with trainAt16 := h.maxRate == 1, lastTry := now }

/-- R446: a module takes up its trims at its training. -/
def State.linkTrims (s : State) (m : Mod) : State := s.updFuse fun f => f.takeTrims (trimsOf m.val)

/-- R24, R57, R98: the posted-write buffer has drained to the points of coherence, and the link retrains as soon as it may, at
the rate that max_rate then has. -/
def State.moduleDrainComplete (s : State) (m : Mod) : State :=
  let h := s.hlm.get m
  if h.link == .reset && s.linkOk m && h.posted.isEmpty && h.flit.inbox.isEmpty then
    let now := s.now
    (s.updHlm m fun h => { h.startTraining now with drained := true }).linkTrims m
  else s

def execModuleDrainComplete (m : Mod) (s : State) : Host.Outcome State Fault Refusal := .next (s.moduleDrainComplete m)

/-- R418: one EVENT message for every event routed to the module whose status is 1. -/
def State.eventsFor (s : State) (m : Mod) : List EvMsg :=
  (List.finRange 360).filterMap fun e =>
    let x := s.mgmt.ev.get e
    if x.msgEn && x.module == m && x.occ != x.ack then some { e := e, port := x.port } else none

/-- R317, R418: a parked link resumes, and its module sends the events that are pending. A module in a link reset or in
training trains first (R96, R98). -/
def State.resumeLink (s : State) (m : Mod) : State :=
  if (s.hlm.get m).link == .parked then
    let evs := s.eventsFor m
    s.updHlm m fun h => { h with link := .active, evq := evs }
  else s

/-- The module is in a training that may end: training, or in a link reset whose drain is complete. -/
def Hlm.inTraining (h : Hlm) : Bool := h.link == .training || (h.link == .reset && h.drained)

/-- R57, R87, R418: training completes at x64 and the link becomes active. -/
def State.linkTrainingDone (s : State) (m : Mod) (rate16 : Bool) (repaired : BitVec 4) : State :=
  let h := s.hlm.get m
  if h.inTraining && s.linkOk m then
    let evs := s.eventsFor m
    let s := s.updClk fun k => { k with rate := if h.trainAt16 || rate16 then (if k.rate = 2 then 2 else 1) else 2 }
    s.updHlm m fun h =>
      { h.settle with link := .active, rate16 := h.trainAt16 || rate16, lanesRepaired := repaired, evq := evs, flitAt := none,
                      flit := { last := h.flit.last } }
  else s

def execLinkTrainingDone (m : Mod) (rate16 : Bool) (repaired : BitVec 4) (s : State) :
    Host.Outcome State Fault Refusal := .next (s.linkTrainingDone m rate16 repaired)

/-- R57: a module that is down trains again 1 ms after its latest attempt began, while the host asks for it. -/
def State.trainingRetry (s : State) (m : Mod) : State :=
  let h := s.hlm.get m
  if h.link == .down && h.usable && s.linkOk m then
    let s := s.advance (h.lastTry + 1000000)
    let now := s.now
    (s.updHlm m fun h => { h.startTraining now with link := .training }).linkTrims m
  else s

def execTrainingRetry (m : Mod) (s : State) : Host.Outcome State Fault Refusal := .next (s.trainingRetry m)

/-- R57: training at 32 GT/s falls back to 16 GT/s; at 16 GT/s the module stays down. -/
def State.linkTrainingFailure (s : State) (m : Mod) : State :=
  let h := s.hlm.get m
  if h.inTraining && s.linkOk m then
    if h.trainAt16 then s.updHlm m fun h => { h with link := .down } else s.updHlm m fun h => { h with trainAt16 := true }
  else s

def execLinkTrainingFailure (m : Mod) (s : State) : Host.Outcome State Fault Refusal := .next (s.linkTrainingFailure m)

end Sys2Proof.Machine
end

