-- ==== Sys2Proof/Machine/Access.lean ====
section
/-! DEFINITION. Answers of the register fabric on the path of their access, and the mailbox windows (R91, R354, R396,
R456). -/

namespace Sys2Proof.Machine

/-! ## Answers -/

/-- R81, R91: the response to a CFG access of module m. -/
def cfgAnswer (c : CfgReq) : AccRes → Option OutMsg
  | .wait => none
  | .err e => some { outMsg opERROR c.port c.tag with status := e, aux := BitVec.ofNat 32 c.off.toNat }
  | .ok v =>
    if c.write then some { outMsg opWACK c.port c.tag with credit := .ctrl }
    else some { outMsg opCFGDATA c.port c.tag with credit := .ctrl, aux := v }

/-- R88: a refused access returns its credit at the refusal. -/
def State.answerCfg (s : State) (m : Mod) (seq : Nat) (r : AccRes) : State :=
  match (s.hlm.get m).cfgq.find? fun c => c.seq == seq && c.started with
  | none => s
  | some c =>
    match cfgAnswer c r with
    | none => s
    | some o =>
      s.updHlm m fun h =>
        let h := { h with txq := h.txq ++ [o] }
        if o.opc = opERROR then h.creditDue .ctrl else h

/-- R396: the five bytes that a register read returns. -/
def readBytes : AccRes → BitVec 40
  | .wait => 0
  | .err e => (e.setWidth 8) ++ (0 : Word)
  | .ok v => (0 : BitVec 8) ++ v

/-- R396: the last status that an outcome leaves. -/
def lastStatus : AccRes → BitVec 8
  | .wait => 0
  | .err e => e.setWidth 8
  | .ok _ => 0

/-- R396: the outcome of a sideband access: of a write the last status; of a read the bytes, or NACK until they are there,
and then for the retry. -/
def I3cTgt.answer (x : I3cTgt) (wr : Bool) (off : BitVec 24) (r : AccRes) : I3cTgt :=
  if wr then (if r = .wait then { x with nack := false } else { x with last := lastStatus r, nack := false })
  else if r = .wait then { x with busy := true, nack := true }
  else if x.busy then { x with busy := false, ready := some (off, readBytes r) }
  else { x with nack := false, rdata := readBytes r }

/-- R456: the data register of a debug path after an access. -/
def dbgWord (wr busy : Bool) (status : BitVec 6) (off : BitVec 24) (data : Word) : BitVec 64 :=
  bit1 wr ++ bit1 busy ++ status ++ off ++ data

/-- The answer of an access goes back on the path by which it came. -/
def State.accAnswer (s : State) (a : Access) (r : AccRes) : State :=
  match a.org with
  | .inband m seq => s.answerCfg m seq r
  | .sideband t => s.updI3c t fun x => x.answer a.wr.isSome a.off r
  | .debug j =>
    let done := fun (st : BitVec 6) (d : Word) => s.updBoot fun b =>
      { b with dbgBusy := upd b.dbgBusy j fun _ => false, dbgRes := upd b.dbgRes j fun _ => dbgWord a.wr.isSome false st a.off d }
    match r with
    | .wait => s.updBoot fun b => { b with dbgBusy := upd b.dbgBusy j fun _ => true }
    | .err e => done (e.setWidth 6) 0
    | .ok v => done 0 (a.wr.getD v)
  | .direct => s.updMgmt fun g => { g with lastAcc := r }

/-! ## Mailbox windows (R353, R354) -/

/-- R353: the window of an offset, and the byte in it. -/
def windowOf (off : Nat) : Option (Mb × Nat) :=
  if 0x40000 ≤ off ∧ off < 0x58000 then some (Fin.ofNat 24 ((off - 0x40000) / 0x1000), off % 0x1000) else none

/-- A word of a window is read or written. -/
def State.windowAccess (s : State) (k : Mb) (a : Nat) (wr : Option Word) : AccRes × State :=
  match wr with
  | none => (.ok (memReadW (s.mb k).win a), s)
  | some v => (.ok 0, s.updMb k fun b => { b with win := memWriteW b.win a v })

/-- R354: the hold ends and the accesses that wait are performed in order. -/
def State.releaseWindow (s : State) (k : Mb) : State :=
  let w := (s.mb k).waiting
  let s := s.updMb k fun b => { b with winFw := false, waiting := [] }
  w.foldl (fun s a =>
    let (r, s) := s.windowAccess k (a.off.toNat % 0x1000) a.wr
    s.accAnswer a r) s

end Sys2Proof.Machine
end

