-- ==== Sys2Proof/Machine/Codec.lean ====
section
/-! DEFINITION. Decoding of read data: classes, retry, poison, demand scrub, lane monitor (R215 to R226, R300). -/

namespace Sys2Proof.Machine

/-! ## Lane marks (R218, R300) -/

/-- Layout L of the cause codes of EV4n+3 (R413): group and lane. -/
def laneDet (grp lane : Nat) : BitVec 24 := BitVec.ofNat 24 (grp * 2 ^ 22 + lane * 2 ^ 16)

/-- Channels whose marks count together, with the limit (R218). -/
def State.markRoom (s : State) (n : Ch) (p : Pc) : Bool :=
  if s.map.isJoined n then
    decide (((s.chan.get n).pc.get p).nmark + ((s.chan.get (partner n)).pc.get p).nmark < 8)
  else decide (((s.chan.get n).pc.get p).nmark < 4)

/-- R301: a data spare of the group that can still be selected. -/
def LaneGroup.freeSpare (g : LaneGroup) : Option (Fin 2) :=
  (List.finRange 2).find? fun i => !(g.spares.get i).en && !(g.spares.get i).failed && g.sel.all fun x => x.1 != i

/-- R218: a mark beyond the limit is refused, and reported once in a window. -/
def State.refuseMark (s : State) (n : Ch) (p : Pc) (lane : Nat) : State :=
  if ((s.chan.get n).pc.get p).refusedMark.contains lane then s
  else
    (s.updChan n fun c => c.updPc p fun g => { g with refusedMark := lane :: g.refusedMark }).raise (evLane n) 2
      (laneDet p.val lane) 0

/-- R303: a lane of the group is marked and no spare is free for it. -/
def State.noSpare (s : State) (n : Ch) (p : Pc) : State :=
  if ((s.chan.get n).pc.get p).freeSpare.isSome then s else s.raise (evLane n) 8 (laneDet p.val 0) 0

/-- R218, R300, R293: mark a lane within the limit, and report it; a refusal is reported once in a window. -/
def State.markLane (s : State) (n : Ch) (p : Pc) (lane : Nat) (cause : BitVec 8) (detA : BitVec 24) (detB : Word) : State :=
  let g := (s.chan.get n).pc.get p
  if g.marks.getLsbD lane then s
  else if s.markRoom n p then
    ((s.updChan n fun c => c.updPc p fun g => { g with marks := g.marks ||| BitVec.twoPow 36 lane }).raise (evLane n)
      cause detA detB).noSpare n p
  else s.refuseMark n p lane

/-- Count one corrected symbol of a lane, with the bank it came from. -/
def monAdd (m : List (Nat × Nat × BitVec 16)) (lane b : Nat) : List (Nat × Nat × BitVec 16) :=
  if m.any (·.1 == lane) then
    m.map fun x => if x.1 = lane then (x.1, x.2.1 + 1, x.2.2 ||| BitVec.twoPow 16 b) else x
  else m ++ [(lane, 1, BitVec.twoPow 16 b)]

/-- R300: one corrected symbol. -/
def State.monitor (s : State) (n : Ch) (p : Pc) (lane b : Nat) : State :=
  let g := (s.chan.get n).pc.get p
  if g.marks.getLsbD lane then s
  else
    let mon := monAdd g.mon lane b
    let s := s.updChan n fun c => c.updPc p fun g => { g with mon := mon }
    match mon.find? (·.1 == lane) with
    | none => s
    | some (_, k, banks) =>
      if (s.chan.get n).cfg.monThresh ≤ k ∧ 4 ≤ countBits banks ∧ !g.identified.contains lane
          ∧ !g.refusedMark.contains lane then
        let s := s.updChan n fun c => c.updPc p fun g => { g with identified := lane :: g.identified }
        s.markLane n p lane 6 (laneDet p.val lane) (w32 k)
      else s

/-- R300: the corrected symbols of a word are attributed to their lanes. -/
def State.attribute (s : State) (n : Ch) (e : Entry) (fixed : List Nat) : State :=
  fixed.foldl (fun s pos =>
    let (fol, lane) := symLane e.twin pos
    s.monitor (if fol then partner n else n) e.loc.pcIx lane (bankB e.loc.bank)) s

/-! ## Classes (R217, R219, R225) -/

/-- The data of a line as received. -/
def applyErrs (twin : Bool) (line : PairLine) (errs : List SymErr) : PairLine :=
  errs.foldl (fun (l : PairLine) (e : SymErr) =>
    match symByte twin e.pos with
    | none => l
    | some b => l ^^^ ((e.xor.setWidth 1024) <<< (8 * b))) line

/-- A position lies on a marked lane. -/
def State.onMark (s : State) (n : Ch) (e : Entry) (pos : Nat) : Bool :=
  let (fol, lane) := symLane e.twin pos
  ((s.chan.get (if fol then partner n else n)).pc.get e.loc.pcIx).marks.getLsbD lane

/-- R217: erasures: two symbols for each marked lane. -/
def State.erasures (s : State) (n : Ch) (e : Entry) : Nat :=
  let own := ((s.chan.get n).pc.get e.loc.pcIx).nmark
  2 * (if e.twin then own + ((s.chan.get (partner n)).pc.get e.loc.pcIx).nmark else own)

/-- Free choice of `k` different members of a list. -/
def State.drawFrom (s : State) : List Nat → Nat → List Nat × State
  | _, 0 => ([], s)
  | l, k + 1 =>
    if l.isEmpty then ([], s)
    else
      let (i, s) := s.drawNat l.length
      let p := l.getD i 0
      let (r, s) := s.drawFrom (l.filter (· != p)) k
      (p :: r, s)

/-- Free changes, none of them 0, of the symbols at some positions. -/
def State.drawErrs (s : State) : List Nat → List SymErr × State
  | [] => ([], s)
  | p :: r =>
    let (v, s) := s.drawNat 255
    let (es, s) := s.drawErrs r
    ({ pos := p, xor := BitVec.ofNat 8 (v + 1) } :: es, s)

/-- R217, R219: a wrong codeword that the decoder may reach from a word with the data `line` as received: it changes at
most (checks - erasures) / 2 unmarked symbols, at least one where nothing is marked, and any marked ones; the class follows
from what it changes. With every check symbol spent on erasures it changes marked ones only. -/
def State.miscorrect (s : State) (n : Ch) (e : Entry) (line : PairLine) : RsRes × State :=
  let f := s.erasures n e
  let all := List.range (rsLen e.twin)
  let least := if f = 0 then 1 else 0
  let (m, s) := s.drawNat ((rsChecks e.twin - f) / 2 + 1 - least)
  let (off, s) := s.drawFrom (all.filter fun p => !s.onMark n e p) (m + least)
  let (mask, s) := s.drawBits 144
  let on := all.filter fun p => s.onMark n e p && mask.getLsbD p
  let (es, s) := s.drawErrs (off ++ on)
  ({ cls := if off.isEmpty then .erasureOnly else .corrected, data := applyErrs e.twin line es, fixed := off ++ on }, s)

/-- R219, R225: a pattern beyond the code: which class it is given is free, but for a pattern that meets no check symbol
left over, which always decodes. -/
def State.beyond (s : State) (n : Ch) (e : Entry) (line : PairLine) : RsRes × State :=
  let (k, s) := if rsChecks e.twin ≤ s.erasures n e then (2, s) else s.drawNat 3
  if k = 0 then ({ cls := .uncorrectable, data := line, fixed := [] }, s)
  else if k = 1 then ({ cls := .storedPoison, data := line, fixed := [] }, s)
  else s.miscorrect n e line

/-- R217, R219, R225: the class of a received word: the stored word with the errors `errs`. -/
def State.classify (s : State) (n : Ch) (e : Entry) (line : PairLine) (poison : Bool) (errs : List SymErr) :
    RsRes × State :=
  let errs := errs.filter fun x => x.xor != 0 && decide (x.pos < rsLen e.twin)
  let f := s.erasures n e
  let off := errs.filter fun x => !s.onMark n e x.pos
  let load := 2 * off.length + f
  let pos := errs.map (·.pos)
  if poison then
    if load ≤ rsChecks e.twin - 1 then ({ cls := .storedPoison, data := line, fixed := pos }, s)
    else s.beyond n e (applyErrs e.twin line errs)
  else if load ≤ rsChecks e.twin then
    let c : RsClass := if errs.isEmpty then (if f = 0 then .clean else .erasureOnly)
      else if off.isEmpty then .erasureOnly else .corrected
    ({ cls := c, data := line, fixed := pos }, s)
  else if rsSyndromesZero e.twin errs then
    ({ cls := if f = 0 then .clean else .erasureOnly, data := applyErrs e.twin line errs, fixed := [] }, s)
  else s.beyond n e (applyErrs e.twin line errs)

/-! ## Counting (R220, R224) -/

/-- R224: a corrected decode counts in the window of EV4n+1. -/
def State.countCe (s : State) (n : Ch) : State :=
  let c := s.chan.get n
  let (w, hit) := countIn c.st.ceWindow s.now (1000000 * 2 ^ c.cfg.ceWin.toNat) c.cfg.ceThresh.toNat
  let s := s.updChan n fun c => (c.updCnt fun k => { k with ce := k.ce + 1 }).updSt fun x => { x with ceWindow := some w }
  if hit then s.raise (evCorr n) 1 (BitVec.ofNat 24 w.thresh) (s.chan.get n).cnt.ce else s

def State.countClass (s : State) (n : Ch) (e : Entry) (r : RsRes) : State :=
  match r.cls with
  | .clean => s
  | .corrected => (s.countCe n).attribute n e r.fixed
  | .erasureOnly => (s.updChan n fun c => c.updCnt fun k => { k with ceErase := k.ceErase + 1 }).attribute n e r.fixed
  | .storedPoison =>
    let s := s.attribute n e r.fixed
    if e.isDemand then s.updChan n fun c => c.updCnt fun k => { k with poisonRd := k.poisonRd + 1 } else s
  | .uncorrectable =>
    if e.isDemand then
      let loc := w32 (2 ^ 31 + locWord e.loc)
      (s.updChan n fun c => (c.updCnt fun k => { k with ue := k.ue + 1 }).updSt fun x => { x with ueLoc := loc }).raise
        (evUnc n) 1 0 loc
    else s

/-! ## Write-backs of corrected words (R223, R226, R302) -/

/-- R223, R302: write the corrected codeword back, unless the line may be stored to or lies in the line buffer; a
stored-poison word is written back as such. Only demand scrubs count as done or skipped (log entry 72, DESIGN CHOICE). -/
def State.scrubBack (s : State) (n : Ch) (e : Entry) (p : Purpose) (r : RsRes) : State :=
  let c := s.chan.get n
  if c.st.tt.any fun o => decide (e.age < o.age) && o.loc == e.loc && o.mayStore then s
  else
    match c.lbOf e.loc with
    | some i =>
      if (c.st.lb.get i).dirty then s
      else s.updChan n fun c => c.updLb i fun x => { x with dirty := true, cls := none, data := r.data, lastUse := s.now }
    | none =>
      if c.canTake s.now c.cfg.maintCls then s.addMaint n .mwr e.loc p r.data (r.cls == .storedPoison)
      else if p = .demandWb then s.updChan n fun c => c.updCnt fun k => { k with dscrubSkip := k.dscrubSkip + 1 }
      else s

/-- R302: a line of a requalification sweep: a word that a symbol of the spared lane was wrong in is written back; one
that finds no room in the table is read again later. -/
def State.requalRead (s : State) (n : Ch) (e : Entry) (r : RsRes) (fol : Bool) (p : Pc) (lane : Fin 36) : State :=
  let c := s.chan.get n
  if r.cls = .uncorrectable ∨ !r.fixed.any fun q => symLane e.twin q == (fol, lane.val) then s
  else if (c.lbOf e.loc).isNone && !c.canTake s.now c.cfg.maintCls then
    s.updChan (if fol then partner n else n) fun c => c.updPc p fun g => { g with requalWait := g.requalWait ++ [e.loc] }
  else s.scrubBack n e .requalWb r

/-- A maintenance read whose word is decoded (R226, R232, R235, R302). -/
def State.maintRead (s : State) (n : Ch) (e : Entry) (r : RsRes) : State :=
  let now := s.now
  let fin := fun (s : State) => s.updChan n (·.finish now e)
  match e.purpose with
  | .scrubRd =>
    let addr := s.map.hostAddr n e.loc
    let s := if s.mgmt.scrub.running then s.updScrub fun b => b.count e.twin addr r else s
    let s := if s.mgmt.scrub.running && s.mgmt.scrub.mode == 1 && r.cls == .corrected then s.scrubBack n e .scrubWb r
      else s
    fin s
  | .requalRd fol p lane => fin (s.requalRead n e r fol p lane)
  | .remapFill i => s.updChan n fun c => c.fillEntry now e i r.data (!r.cls.good)
  | .repairRd i =>
    fin (s.updChan n fun c => { c with
      repair := c.repair.map fun x => { x with done := x.done + 1, buf := x.buf.set i.val (r.data, !r.cls.good) } })
  | .host | .scrubWb | .scrubInit | .init | .demandWb | .requalWb | .remapRelease _ | .repairWr _ => fin s

/-- R134, R223: the line of a fill arrives in its slot, dirty where it was corrected. -/
def State.fillDone (s : State) (n : Ch) (e : Entry) (r : RsRes) : State :=
  let now := s.now
  let i : Fin 16 := Fin.ofNat 16 e.lb.toNat
  if r.cls.good then
    s.updChan n fun c =>
      (c.updLb i fun x => { x with data := r.data, valid := true, dirty := r.cls == .corrected, cls := none, lastUse := now })
        |>.updEntry e.idx fun x => { x with st := .lb, slot := e.answers }
  else s.updChan n fun c => (c.lbDrop i).poisonedOp now e

/-- What follows from the class of a word for its entry. -/
def State.useWord (s : State) (n : Ch) (e : Entry) (r : RsRes) : State :=
  let s := s.countClass n e r
  let s :=
    if e.kind == .mrd then s.maintRead n e r
    else if e.usesLb then s.fillDone n e r
    else
      let s := s.updChan n fun c => c.answerRead s.now e r.data (!r.cls.good)
      if r.cls == .corrected then s.scrubBack n e .demandWb r else s
  s.rechain n

/-- R217, R219, R225, R282: the class of the word that the burst of an RD brings, with the errors `errs`: of the stored word,
or of what a training mode of the dies returns. A burst that is no codeword decodes as one beyond the code. -/
def State.classifyBurst (s : State) (n : Ch) (e : Entry) (errs : List SymErr) : RsRes × State :=
  match s.burstRead n e.twin e.loc with
  | some (d, p) => s.classify n e d p errs
  | none =>
    match s.patternRead n e.twin e.loc with
    | some (d, own) =>
      let both := own.map fun x => { x with xor := errs.foldl (fun v y => if y.pos = x.pos then v ^^^ y.xor else v) x.xor }
      s.classify n e d false (both ++ errs.filter fun y => own.all fun x => x.pos != y.pos)
    | none =>
      let (d, s) := s.drawBits 1024
      s.beyond n e d

/-- R231, R233: the spare line that a release is to copy is decoded as its turn has come; one that proves uncorrectable is copied
as stored poison. -/
def State.releaseRead (s : State) (n : Ch) (e : Entry) (errs : List SymErr) : State :=
  match e.purpose with
  | .remapRelease i =>
    let m := (s.chan.get n).remap.get i
    if m.st != .live then s
    else
      let (r, s) := s.classify n e m.data false errs
      (s.countClass n e r).updChan n fun c =>
        { c with remap := upd c.remap i fun x => if r.cls.good then { x with data := r.data } else { x with st := .poisoned } }
  | .host | .scrubRd | .scrubWb | .scrubInit | .init | .demandWb | .requalRd _ _ _ | .requalWb | .remapFill _ | .repairRd _
  | .repairWr _ => s

/-- R219 to R226: the data of an entry in COLRD, or the spare line of a read in SRAM, are decoded. A spare line takes no column
command: an uncorrectable one is not read again (R220; log entry 29, DEDUCED). A burst whose RD may not have been executed is not
used (R460, R465). -/
def State.readDataDecode (s : State) (n : Ch) (i : EntryIx) (errs : List SymErr) : State :=
  let c := s.chan.get n
  match c.entry? i with
  | none => s
  | some e =>
    if e.st == .colrd && !e.retryDue && !c.unsure e.colAt then
      let s := s.advance (e.colAt + (s.tim n).rl + 5)
      let (r, s) := s.classifyBurst n e errs
      if r.cls == .uncorrectable && e.isDemand && !e.retry then
        s.updChan n fun c => c.updEntry i fun x => { x with retry := true, retryDue := true }
      else
        let s := if e.retry && r.cls != .uncorrectable then
            s.updChan n fun c => c.updCnt fun k => { k with retryOk := k.retryOk + 1 }
          else s
        s.useWord n e r
    else if e.st == .sram && e.isRead && (!e.answers || c.respRoom e) then
      match c.spareOf e with
      | none => s
      | some j =>
        let m := c.remap.get j
        if m.st == .poisoned then
          let s := s.updChan n fun c => c.updCnt fun k => { k with poisonRd := if e.isDemand then k.poisonRd + 1 else k.poisonRd }
          (if e.kind == .mrd then s.maintRead n e { cls := .storedPoison, data := 0, fixed := [] }
           else s.updChan n fun c => c.answerRead s.now e 0 true).rechain n
        else
          let (r, s) := s.classify n e m.data false errs
          s.useWord n e r
    else if e.waits then s.releaseRead n e errs
    else s

def execReadDataDecode (n : Ch) (i : EntryIx) (errs : List SymErr) (s : State) : Host.Outcome State Fault Refusal :=
  .next (s.readDataDecode n i errs)

end Sys2Proof.Machine
end

