-- ==== Sys2Proof/Machine/Channel.lean ====
section
/-! DEFINITION. Commands of a channel engine beside its scheduler: the crossbar ports, ends of entries, timers (chapters
01, 04, 06, 16). -/

namespace Sys2Proof.Machine

/-! ## Request side of the crossbar (R29 to R34, R126, R127, R143) -/

/-- The entry that a request becomes (R123). -/
def Rq.entry (r : Rq) (idx : EntryIx) (m : Mod) (epoch now : Nat) : Entry :=
  let write := r.kind == .wr64 || r.kind == .wrp
  let mask : BitVec 128 := (if r.kind == .wr64 then BitVec.allOnes 64 else r.mask).setWidth 128
  { idx := idx, st := .chain, kind := r.kind, cls := r.cls, gport := BitVec.ofNat 9 (gport m r.port).val, tag := r.tag,
    loc := r.loc, yellow := r.yellow, twin := r.twin, half := r.half, arr := BitVec.ofNat 16 now, aop := r.aop,
    asz := r.asz, nr := r.nr, off := r.addr.extractLsb' 0 6,
    data := if write && r.half then (r.data.setWidth 1024) <<< 512 else r.data.setWidth 1024,
    mask := if write then (if r.half then mask <<< 64 else mask) else 0, at_ := now, epoch := epoch }

/-- R31, R34, R196: the first request of a list; one that a fence holds blocks those behind it. -/
def listHead (l : List Rq) (n : Ch) (cls : BitVec 4) : Option Rq :=
  (l.find? fun r => r.ch == n && r.cls == cls).filter fun r => !r.held

/-- R156: an older request of the port, accepted before the latest change of its class, has not left the module. -/
def Hlm.classHeld (h : Hlm) (r : Rq) : Bool :=
  (h.ingress ++ h.posted).any fun o => o.port == r.port && decide (o.seq < r.after)

/-- Requests of a module that could enter channel n now: heads of lists, not held by R192, of a class with room. -/
def Hlm.ready (h : Hlm) (c : Chan) (now : Nat) (n : Ch) : List Rq :=
  ((List.range 16).flatMap fun k =>
    let cls := BitVec.ofNat 4 k
    let queue := if h.link == .reset then [] else h.ingress
    if c.canTake now cls then (listHead queue n cls).toList ++ (listHead h.posted n cls).toList else []).filter
    fun r => !h.sameLineHeld r && !h.classHeld r

/-- The oldest of a list of requests (log entry 6, DESIGN CHOICE). -/
def oldestRq : List Rq → Option Rq
  | [] => none
  | r :: l =>
    match oldestRq l with
    | none => some r
    | some q => if q.seq < r.seq then some q else some r

/-- R29: the module may send one more request to these ports in this CC. -/
def Hlm.maySend (h : Hlm) (now : Nat) (ports : List Ch) : Bool :=
  if h.reqCc == now then decide (h.reqTo.length + ports.length ≤ 4) else true

def Hlm.noteSent (h : Hlm) (now : Nat) (ports : List Ch) : Hlm :=
  if h.reqCc == now then { h with reqTo := h.reqTo ++ ports } else { h with reqCc := now, reqTo := ports }

/-- The crossbar has power. -/
def State.xbarOn (s : State) : Bool := s.domOn 2

/-- R23, R237, R474, R111, R148: the channel port accepts requests; none while its quad or the crossbar is off (R322). -/
def State.accepts (s : State) (n : Ch) : Bool :=
  let c := s.chan.get n
  !s.map.isFollower n && !c.cfg.hold && !c.inReset && !s.inWarm && s.xbarOn && s.quadOn n
    && c.st.lastGrant != some s.now && (!s.map.isJoined n || !(s.chan.get (partner n)).cfg.hold)

/-- R30: the module granted, from the pointer on, with its request. -/
def State.pickRequest (s : State) (n : Ch) : Option (Mod × Rq) :=
  let c := s.chan.get n
  (List.range 20).findSome? fun k =>
    let m : Mod := Fin.ofNat 20 (c.st.rr.val + k)
    let h := s.hlm.get m
    match oldestRq (h.ready c s.now n) with
    | none => none
    | some r => if s.modOn m && h.maySend s.now (if r.kind == .rd128 then [n, partner n] else [n]) then some (m, r) else none

/-- R143: what a HINT does as it enters. A pending HINT of its bank counts as another entry that targets the bank first: the second
is dropped (log entry 82, DESIGN CHOICE). -/
def Chan.hintEnter (c : Chan) (now : Nat) (e : Entry) : Chan :=
  let b := e.loc.bank
  if !(c.cfgAt now).hintEn then c
  else if (c.bank b).row == some e.loc.row then c.updBank b fun x => { x with timerAt := now, expired := false }
  else if c.st.tt.any fun o => o.loc.bank == b then c
  else (c.addRequest now e).updEntry e.idx fun x => { x with st := .wait }

/-- R188: the request takes its table entry. -/
def State.enter (s : State) (n : Ch) (m : Mod) (r : Rq) : State :=
  let now := s.now
  let c := s.chan.get n
  let e := r.entry c.freeIdx m (s.hlm.get m).epoch now
  let c := c.enterRsv now e
  let s := s.updChan n fun _ => c.updSt fun x => { x with lastGrant := some now, rr := m + 1 }
  if r.kind == .hint then s.updBanks n fun c => c.hintEnter now e
  else (s.updChan n fun c => (c.dropHints now e.loc.bank).addRequest now e).place n e.idx

/-- R32, R34, R88, R473: the module lets the request go: its credit returns, a write receives its WACK, the tag learns
the entry index. -/
def Hlm.release (h : Hlm) (now : Nat) (n : Ch) (r : Rq) (idx : EntryIx) : Hlm :=
  let h := h.noteSent now (if r.kind == .rd128 then [n, partner n] else [n])
  if r.kind == .wr64 || r.kind == .wrp then
    let h := { h with posted := h.posted.filter (·.seq != r.seq) }
    if h.tags.any fun t => t.port == r.port && t.tag == r.tag && t.seq == r.seq then
      { h.creditDue .write with txq := h.txq ++ [outMsg opWACK r.port r.tag] }
    else h
  else
    { h.creditDue .read with
      ingress := h.ingress.filter (·.seq != r.seq),
      tags := h.tags.map fun t => if t.port == r.port && t.tag == r.tag && t.seq == r.seq
        then { t with idx := some idx } else t }

/-- R243, EV356: the detail of what the checks find; none where the transfer goes through (once resent). -/
def upsetFault : Upset → Option (BitVec 24)
  | .none | .xferOnce | .place _ | .data _ => none
  | .header => some 1
  | .store => some 2
  | .xferTwice => some 3

/-- R243: a request that fails a check is refused with ERROR HWFAULT and not performed; its credit returns. -/
def State.dropRequest (s : State) (m : Mod) (n : Ch) (r : Rq) (kind : BitVec 24) : State :=
  let mine := fun (t : TagRec) => t.port == r.port && t.tag == r.tag && t.seq == r.seq
  let owed := (s.hlm.get m).tags.any mine
  let s := s.updHlm m fun h =>
    { h.creditDue (if r.kind == .wr64 || r.kind == .wrp then .write else .read) with
      ingress := h.ingress.filter (·.seq != r.seq), posted := h.posted.filter (·.seq != r.seq),
      tags := h.tags.map fun t => if mine t then { t with refused := true, idx := none } else t }
  if owed then s.hwFault m r.port r.tag (r.addr.extractLsb' 0 32) kind (some n) else s

/-- R471: what an upset that no check covers makes of a request. -/
def Rq.strike (r : Rq) (u : Upset) : Rq :=
  match u with
  | .place l => { r with loc := l }
  | .data x => { r with data := r.data ^^^ x }
  | .none | .xferOnce | .xferTwice | .header | .store => r

/-- R29, R30: one CC of the request side of a channel port. -/
def State.crossbarRequestGrant (s : State) (n : Ch) (u : Upset) : State :=
  if !s.accepts n then s
  else
    match s.pickRequest n with
    | none => s
    | some (m, r) =>
      match upsetFault u with
      | some kind => s.dropRequest m n r kind
      | none =>
        let now := s.now
        let idx := (s.chan.get n).freeIdx
        (s.updHlm m fun h => h.release now n r idx).enter n m (r.strike u)

/-! ## Response side (R30, R36, R133, R183) -/

/-- R38, R147: the responses that wait at a channel port; the follower's of a joined pair come from its leader's engine. -/
def State.portQueue (s : State) (n : Ch) : List Resp :=
  if s.map.isFollower n then (s.chan.get (partner n)).st.respqF else (s.chan.get n).st.respq

/-- R30: the channel port granted, from the pointer on, with its oldest response for the module. -/
def State.pickResponse (s : State) (m : Mod) : Option (Ch × Resp) :=
  (List.finRange 64).findSome? fun k =>
    let n : Ch := Fin.ofNat 64 ((s.hlm.get m).rr.val + k.val)
    if s.quadOn n then ((s.portQueue n).find? (·.mod == m)).map fun r => (n, r) else none

/-- R29: at most four responses in a CC. -/
def Hlm.mayTake (h : Hlm) (now : Nat) : Bool := if h.respCc == now then decide (h.respN < 4) else true

def Resp.msg (r : Resp) : OutMsg :=
  { opc := r.opc, port := r.port, tag := r.tag, status := r.status, poison := r.poison, dsz := r.dsz, aux := 0,
    data := r.data, credit := .none }

/-- R133: a response leaves its channel port; with the last of its responses the entry is done (R183). -/
def Chan.takeResp (c : Chan) (now : Nat) (r : Resp) (follower : Bool) : Chan :=
  let rest := fun (l : List Resp) => l.filter (·.idx != r.idx)
  let c := c.updSt fun x =>
    { x with respq := if follower then x.respq else rest x.respq, respqF := if follower then rest x.respqF else x.respqF }
  if c.st.respq.any (·.idx == r.idx) || c.st.respqF.any (·.idx == r.idx) then c
  else (c.freeEntry now r.idx).markLat now r.cls (now - r.at_)

/-- R38: the module joins the two halves of an RD128 and sends no RDATA before both have arrived. -/
def Hlm.joinHalf (h : Hlm) (r : Resp) (high : Bool) : Hlm :=
  match h.halves.find? fun o => o.port == r.port && o.tag == r.tag with
  | none => { h with halves := h.halves ++ [r.msg] }
  | some o =>
    let bad := r.poison || o.poison
    let d : BitVec 1024 := if bad then 0 else if high then (r.data <<< 512) ||| o.data else (o.data <<< 512) ||| r.data
    { h with halves := h.halves.filter (· != o), txq := h.txq ++ [{ r.msg with dsz := 4, poison := bad, data := d }] }

/-- R36: a response reaches its module, which discards it where a link reset has voided its tag. -/
def Hlm.takeResp (h : Hlm) (r : Resp) : Hlm :=
  if r.epoch != h.epoch then h
  else
    match r.part with
    | none => { h with txq := h.txq ++ [r.msg] }
    | some high => h.joinHalf r high

/-- R36: with the last response of an entry, its tag no longer names the entry; a response to a tag that a link reset has voided
leaves the tags as they are. -/
def Hlm.answered (h : Hlm) (e : Ch) (r : Resp) (done : Bool) : Hlm :=
  if done && r.epoch == h.epoch then
    { h with tags := h.tags.map fun t =>
        if t.port == r.port && t.tag == r.tag && t.ch == some e then { t with idx := none } else t }
  else h

/-- R29: the port after the one served comes first next time, and the responses of the CC are counted. -/
def Hlm.countResp (h : Hlm) (now : Nat) (n : Ch) : Hlm :=
  { h with rr := n + 1, respN := if h.respCc == now then h.respN + 1 else 1, respCc := now }

/-- R243, R471: a response whose transfer has failed twice arrives poisoned; one that an upset outside the checks has met carries wrong
data. -/
def Resp.spoil (r : Resp) (u : Upset) : Resp :=
  match u with
  | .xferTwice => { r with poison := true, data := 0 }
  | .data x => if r.poison then r else { r with data := r.data ^^^ x.setWidth 1024 }
  | .none | .xferOnce | .header | .store | .place _ => r

/-- R30, R36, R243: a response leaves its channel port for its module. -/
def State.crossbarResponseGrant (s : State) (m : Mod) (u : Upset) : State :=
  let now := s.now
  if !(s.hlm.get m).mayTake now || !s.xbarOn || !s.modOn m then s
  else
    match s.pickResponse m with
    | none => s
    | some (n, r) =>
      let e := s.map.server n
      let s := s.updChan e fun c => c.takeResp now r (s.map.isFollower n)
      let done := ((s.chan.get e).entry? r.idx).isNone
      let s := (s.updHlm m fun h => ((h.answered e r done).countResp now n).takeResp (r.spoil u)).rechain e
      if u = .xferTwice then s.raiseG 356 3 (BitVec.ofNat 32 (m.val + 2 ^ 14 + 256 * e.val)) else s

def execCrossbarResponseGrant (g : RespGrant) (s : State) : Host.Outcome State Fault Refusal :=
  .next (s.crossbarResponseGrant g.m g.u)

/-! ## Ends of writes and operations (R125, R135) -/

/-- R125: the data burst of a WR ends, or a write to a spare line is carried out. -/
def State.writeBurstDone (s : State) (n : Ch) (i : EntryIx) : State :=
  let c := s.chan.get n
  match c.entry? i with
  | none => s
  | some e =>
    if e.st == .colwr && c.unsure e.colAt then s
    else if e.st == .colwr then (s.advance (e.colAt + (s.tim n).wl + 2)).writeDone n e
    else if e.st == .sram && e.isWrite then
      match e.purpose with
      | .remapFill _ => s
      | .host | .scrubRd | .scrubWb | .scrubInit | .init | .demandWb | .requalRd _ _ _ | .requalWb | .remapRelease _ | .repairRd _
      | .repairWr _ => s.writeDone n e
    else s

def execWriteBurstDone (n : Ch) (i : EntryIx) (s : State) : Host.Outcome State Fault Refusal := .next (s.writeBurstDone n i)

/-- The oldest entry that the atomic unit can serve: one that is answered needs its slot of the response queue (R133), and an STC
the reservations at its place (R209). -/
def Chan.unitEntry (c : Chan) : Option Entry :=
  c.st.tt.find? fun e =>
    (e.st == .lb || (e.st == .sram && e.usesLb)) && (!e.answers || c.respRoom e) && (e.kind != .stc || c.stcKnown e)

/-- R135: an AMO or an STC takes one CC of the unit, a 16-byte AMO.CAS two; a merge (R136) takes none. -/
def Entry.unitCcs (e : Entry) : Nat :=
  if e.kind == .amo then (if e.asz == 2 then 2 else 1) else if e.kind == .stc then 1 else 0

/-- R135: the unit is busy with an atomic up to the end of its last CC. -/
def State.unitStart (s : State) (n : Ch) (e : Entry) : State :=
  if e.unitCcs = 0 then s
  else
    let t := max s.now (s.chan.get n).st.unitFree + (e.unitCcs - 1)
    (s.advance t).updChan n fun c => c.updSt fun x => { x with unitFree := t + 1 }

/-- R243: a word of the engine's buffers has become uncorrectable: a line-buffer slot is poison from then on, for what reads it
and for its write-back; a line of the repair buffer is flagged (R235). -/
def Chan.upset (c : Chan) (u : StoreUpset) : Chan :=
  match u with
  | .none => c
  | .slot i => c.updLb i fun x => { x with poison := x.poison || x.valid }
  | .line i => { c with repair := c.repair.map fun r => { r with buf := r.buf.modify i.val fun x => (x.1, true) } }
  | .data i x => c.updLb i fun y => if y.valid then { y with data := y.data ^^^ x } else y

/-- R135, R219, R222, R231, R243: an operation on a LIVE spare line, decoded like a DRAM word. -/
def State.spareOp (s : State) (n : Ch) (e : Entry) (j : Fin 16) (errs : List SymErr) : State :=
  let now := s.now
  let (r, s) := s.classify n e ((s.chan.get n).remap.get j).data false errs
  let s := s.countClass n e r
  if r.cls.good then
    let (st, c') := (s.chan.get n).performOp now e r.data
    s.updChan n fun _ => match st with
      | none => c'
      | some d => { c' with remap := upd c'.remap j fun x => { x with data := d } }
  else s.updChan n fun c => c.poisonedOp now e

/-- R135, R205, R222, R243: one atomic, STC or merge, in the line buffer or on a spare line; `bad`: the slot's words are
uncorrectable; `errs`: the errors in the spare line. -/
def State.atomicUnitOp (s : State) (n : Ch) (bad : Bool) (errs : List SymErr) : State :=
  match (s.chan.get n).unitEntry with
  | none => s
  | some e =>
    let s := s.unitStart n e
    let now := s.now
    let c := s.chan.get n
    if e.st == .lb then
      let i : Fin 16 := Fin.ofNat 16 e.lb.toNat
      if (bad || (c.st.lb.get i).poison) && !e.isWrite then
        (s.updChan n fun c => (c.updLb i fun x => { x with lastUse := now, poison := true }).poisonedOp now e).rechain n
      else
        let (st, c') := c.performOp now e (c.st.lb.get i).data
        let c' := c'.updLb i fun x => { x with lastUse := now }
        let c' := match st with
          | none => c'
          | some d => c'.lbStore i now (some e.cls) d (e.isWrite && e.poison)
        ((s.updChan n fun _ => c').initCounted e).rechain n
    else
      match c.spareOf e with
      | none => s
      | some j =>
        let m := c.remap.get j
        if m.st == .poisoned then
          (s.updChan n fun c => (c.updCnt fun k => { k with poisonRd := k.poisonRd + 1 }).poisonedOp now e).rechain n
        else (s.spareOp n e j errs).rechain n

def execAtomicUnitOp (g : UnitOp) (s : State) : Host.Outcome State Fault Refusal :=
  .next ((s.updChan g.n fun c => c.upset g.upset).atomicUnitOp g.n g.bad g.errs)

/-- R134: a dirty slot that no entry has used for 32 CC and none waits on is written back. -/
def State.lineBufferIdleExpiry (s : State) (n : Ch) (i : Fin 16) : State :=
  let c := s.chan.get n
  let x := c.st.lb.get i
  if x.dirty && !x.wb && !c.lbBusy i && !(c.st.tt.any fun e => e.st == .chain && x.line == some e.loc) then
    let a := c.st.ageCtr
    let s := s.advance (x.lastUse + 32)
    s.updChan n fun c =>
      (c.updLb i fun y => { y with wb := true, wbAge := a, wbAsk := s.now }).updSt fun z => { z with ageCtr := a + 1 }
  else s

def execLineBufferIdleExpiry (n : Ch) (slot : Fin 16) (s : State) : Host.Outcome State Fault Refusal :=
  .next (s.lineBufferIdleExpiry n slot)

/-! ## Timers (R143, R144, R208, R224, R300) -/

/-- R144: page timeout ladder, ns. -/
def ladderNs (i : Nat) : Nat := if i = 0 then 0 else 2 ^ (i + 2)

/-- R144: index of a bank's timeout under the policy. -/
def Chan.pageIdx (c : Chan) (b : BankIx) : Nat :=
  if c.cfg.pageMode = 2 then 0 else if c.cfg.pageMode = 1 then c.cfg.tmax.toNat else (c.bank b).ladder

/-- R220: a demand read whose word awaits its decode, at first or once more. -/
def Entry.awaitsDecode (e : Entry) : Bool := e.st == .colrd && e.isDemand

/-- R138, R144, R176, R220: the open row of the bank has a pending hit, of an open class; a word that may have to be read again
counts as one (log entry 29, DEDUCED). -/
def Chan.pendingHit (c : Chan) (b : BankIx) : Bool :=
  match (c.bank b).row with
  | none => false
  | some r =>
    (c.st.tt.any fun e => e.loc.bank == b && e.loc.row == r && c.isOpen e.cls && (e.st == .hit || e.awaitsDecode)) ||
    (c.st.lb.toList.any fun x => x.dirty && x.wb && c.isOpen (x.cls.getD c.cfg.maintCls)
      && x.line.any fun l => l.bank == b && l.row == r)

/-- R144: the page timer of a bank expires; its PRE is then a candidate of the scheduler. -/
def State.pageTimeout (s : State) (n : Ch) (b : BankIx) : State :=
  let c := s.chan.get n
  let x := c.bank b
  if x.row.isSome && !x.expired && !c.pendingHit b then
    (s.advance (x.timerAt + ladderNs (c.pageIdx b))).updBanks n fun c => c.updBank b fun y => { y with expired := true }
  else s

def execPageTimeout (n : Ch) (b : BankIx) (s : State) : Host.Outcome State Fault Refusal := .next (s.pageTimeout n b)

/-- R143: 64 CC without its ACT. -/
def State.hintTimeout (s : State) (n : Ch) (i : EntryIx) : State :=
  match (s.chan.get n).entry? i with
  | none => s
  | some e => if e.kind == .hint then (s.advance (e.at_ + 64)).updChan n (·.freeEntry (max s.now (e.at_ + 64)) i) else s

def execHintTimeout (n : Ch) (i : EntryIx) (s : State) : Host.Outcome State Fault Refusal := .next (s.hintTimeout n i)

/-- R208: 2 us after its LDR a reservation is no longer protected; it stays valid. That the time has passed ends the protection
(`Rsv.protected`); a step of the order that came before goes on finding it. -/
def State.reservationProtectionExpiry (s : State) (n : Ch) (k : PortK) : State :=
  match (s.chan.get n).rsvNow.find? (·.port == BitVec.ofNat 9 k.val) with
  | none => s
  | some r => s.advance (r.at_ + 2000)

def execReservationProtectionExpiry (n : Ch) (k : PortK) (s : State) : Host.Outcome State Fault Refusal :=
  .next (s.reservationProtectionExpiry n k)

/-- R224: the window of EV4n+1 closes. -/
def State.ceWindowClose (s : State) (n : Ch) : State :=
  match (s.chan.get n).st.ceWindow with
  | none => s
  | some w => (s.advance (w.openedAt + w.length)).updChan n fun c => c.updSt fun x => { x with ceWindow := none }

def execCeWindowClose (n : Ch) (s : State) : Host.Outcome State Fault Refusal := .next (s.ceWindowClose n)

/-- R300: the counting window of the lane monitor restarts. -/
def State.laneMonitorWindow (s : State) (n : Ch) : State :=
  let t := (s.chan.get n).st.monAt + 1000000
  (s.advance t).updChan n fun c =>
    { c.updSt fun x => { x with monAt := max t s.now } with
      pc := c.pc.map fun g => { g with mon := [], identified := [], refusedMark := [] } }

def execLaneMonitorWindow (n : Ch) (s : State) : Host.Outcome State Fault Refusal := .next (s.laneMonitorWindow n)

/-- R139: an entry is aged exactly while its passed count is at least age_cap, which the scheduler reads; the moment
at which the count reaches age_cap changes nothing else. -/
def State.entryAged (s : State) (_n : Ch) (_i : EntryIx) : State := s

def execEntryAged (n : Ch) (i : EntryIx) (s : State) : Host.Outcome State Fault Refusal := .next (s.entryAged n i)

/-! ## An uncorrectable table entry (R473) -/

/-- R473: the engine frees the entry, reports it and sends its index to every module. -/
def State.entryLost (s : State) (n : Ch) (i : EntryIx) : State :=
  match (s.chan.get n).entry? i with
  | none => s
  | some _ =>
    let s := s.updChan n fun c =>
      (c.freeEntry s.now i).updSt fun x => { x with
        respq := x.respq.filter (·.idx != i), respqF := x.respqF.filter (·.idx != i), notices := x.notices ++ allMod.map fun m => (m, i) }
    (s.raise (evUnc n) 2 (BitVec.ofNat 24 i.val) 0).rechain n

/-- R82, R413: an ERROR HWFAULT for an outstanding tag; EV356 has no code of its own for this cause: the detail is free. -/
def State.tagFault (s : State) (m : Mod) (t : TagRec) (n : Ch) : State :=
  let (d, s) := s.drawBits 24
  s.hwFault m t.port t.tag t.aux d (some n)

/-- R86: the kinds whose response has not been sent while the tag has an entry (a write has had its WACK, R125). -/
def TagRec.owes (t : TagRec) : Bool := t.kind != .wr64 && t.kind != .wrp

/-- R473: module m receives the index and answers the tag that it holds with it. The first notice of a live entry is
the engine's finding of it. -/
def State.entryIndexNotice (s : State) (m : Mod) (n : Ch) (i : EntryIx) : State :=
  let known := (s.chan.get n).st.notices.contains (m, i)
  let s := if known then s else s.entryLost n i
  if (s.chan.get n).st.notices.contains (m, i) then
    let s := s.updChan n fun c => c.updSt fun x => { x with notices := x.notices.filter (· != (m, i)) }
    match (s.hlm.get m).tags.find? fun t => t.ch == some n && t.idx == some i && t.owes with
    | none => s
    | some t =>
      (s.updHlm m fun h =>
        { h with tags := h.tags.map fun x => if x = t then { x with refused := true, idx := none } else x,
                 halves := h.halves.filter fun o => !(o.port == t.port && o.tag == t.tag) }).tagFault m t n
  else s

def execEntryIndexNotice (m : Mod) (n : Ch) (i : EntryIx) (s : State) : Host.Outcome State Fault Refusal :=
  .next (s.entryIndexNotice m n i)

end Sys2Proof.Machine
end

