-- ==== Sys2Proof/Machine/Timing.lean ====
section
/-! DEFINITION. The timing rules of the core dies, over the history of issued commands (R115 to R121). -/

namespace Sys2Proof.Machine

/-! ## Sorts of commands -/

def Zci.isRd : Zci → Bool
  | .rd | .rda => true
  | .act | .pre | .preab | .refpb | .refab | .trf | .mrw | .mrr | .tmp | .pde | .pdx | .sre | .srx | .wr | .wra => false
def Zci.isWr : Zci → Bool
  | .wr | .wra => true
  | .act | .pre | .preab | .refpb | .refab | .trf | .mrw | .mrr | .tmp | .pde | .pdx | .sre | .srx | .rd | .rda => false
def Zci.isCol (z : Zci) : Bool := z.isRd || z.isWr
/-- R119: activations of a bank. -/
def Zci.isActv : Zci → Bool
  | .act | .refpb | .trf => true
  | .pre | .preab | .refab | .mrw | .mrr | .tmp | .pde | .pdx | .sre | .srx | .rd | .rda | .wr | .wra => false
/-- R116, R280: commands whose data come from the die. -/
def Zci.isSrc (z : Zci) : Bool := z.isRd || z == .mrr || z == .tmp
/-- Commands that address one pseudo-channel and SID (R277). -/
def Zci.onPc : Zci → Bool
  | .act | .pre | .preab | .refpb | .refab | .trf | .mrr | .tmp | .rd | .rda | .wr | .wra => true
  | .mrw | .pde | .pdx | .sre | .srx => false
/-- Commands that address one core die (R277). -/
def Zci.onDie : Zci → Bool
  | .act | .pre | .preab | .refpb | .refab | .trf | .mrr | .tmp | .rd | .rda | .wr | .wra | .mrw => true
  | .pde | .pdx | .sre | .srx => false
/-- Commands of a single bank. -/
def Zci.onBank : Zci → Bool
  | .act | .pre | .refpb | .trf | .rd | .rda | .wr | .wra => true
  | .preab | .refab | .mrw | .mrr | .tmp | .pde | .pdx | .sre | .srx => false

/-! ## Scopes (R117) -/

def samePc (a b : Loc) : Bool := a.pc == b.pc
def samePcSid (a b : Loc) : Bool := a.pc == b.pc && a.sid == b.sid
def sameBg (a b : Loc) : Bool := samePcSid a b && a.bg == b.bg
def sameBank (a b : Loc) : Bool := a.bank == b.bank

/-- The new command reaches the bank of the old one, or all banks of its pseudo-channel and SID. -/
def reaches (op : Zci) (l old : Loc) : Bool := if op.onBank then sameBank l old else samePcSid l old

/-- R117 (tRFCab): a command to the pseudo-channel and SID of the old one: to the two themselves, to the die, to all dies. -/
def meets (op : Zci) (l old : Loc) : Bool :=
  if op.onPc then samePcSid l old else !op.onDie || l.sid == old.sid

/-- R119: what a command counts toward tFAW. -/
def fawWeight : Zci → Nat
  | .act => 1
  | .refpb => 1
  | .trf => 2
  | .refab => 4
  | .pre | .preab | .mrw | .mrr | .tmp | .pde | .pdx | .sre | .srx | .rd | .rda | .wr | .wra => 0

/-- Interval of the data of a command issued at `t` (R116). -/
def dataFrom (tm : Timing) (op : Zci) (t : Nat) : Nat := if op.isWr then t + tm.wl else t + tm.rl

/-- Two bursts on the lanes of one pseudo-channel do not overlap (R116). -/
def burstsApart (a b : Nat) : Bool := decide (a + 2 ≤ b) || decide (b + 2 ≤ a)

/-- R118: start of the auto-precharge of a column command. -/
def apStart (tm : Timing) (op : Zci) (t actAt actRas : Nat) : Nat :=
  if op = .rda then max (t + tm.tRTP) (actAt + actRas)
  else if op = .wra then max (t + tm.wl + 2 + tm.tWR) (actAt + actRas)
  else 0
def Issued.ap (p : Issued) : Nat := apStart p.tim p.op p.at_ p.actAt p.actRas

/-- R117, R118: an earlier command lets a new one issue at `t`. -/
def Issued.allows (p : Issued) (now : Timing) (op : Zci) (l : Loc) (t : Nat) : Bool :=
  let tm := p.tim
  let after := fun (d : Nat) => decide (p.at_ + d ≤ t)
  let pc := op.onPc && samePc p.loc l
  let bank := op.onPc && reaches op l p.loc
  let opensBank := op.isActv || op == .refab
  let endR := p.at_ + tm.rl + 2
  let endW := p.at_ + tm.wl + 2
  -- rules from an ACT
  (p.op != .act || ((!(op.isCol && bank) || after tm.tRCD) && (!((op == .pre || op == .preab) && bank) || after tm.tRAS)
    && (!(op == .act && bank) || after tm.tRC)))
  -- activations of one pseudo-channel
  && (!(p.op.isActv && op.isActv && pc) || (after tm.tRRDS && (!sameBg p.loc l || after tm.tRRDL)))
  && (!(p.op.isActv && op == .refab && samePcSid p.loc l) || after tm.tRRDS)
  -- precharge, explicit or automatic
  && (!(p.op == .pre && opensBank && bank) || after tm.tRP)
  && (!(p.op == .preab && opensBank && op.onPc && samePcSid p.loc l) || after tm.tRP)
  && (!((p.op == .rda || p.op == .wra) && opensBank && bank) || decide (p.ap + tm.tRP ≤ t))
  -- column commands of one pseudo-channel
  && (!(p.op.isCol && op.isCol && pc) || ((l.sid != p.loc.sid || after tm.tCCDS) && (!sameBg p.loc l || after tm.tCCDL)
    && (l.sid == p.loc.sid || after tm.tCCDR)))
  -- data lanes
  && (!((p.op.isCol || p.op.isSrc) && (op.isCol || op.isSrc) && pc) ||
    burstsApart (dataFrom tm p.op p.at_) (dataFrom now op t))
  && (!(p.op.isSrc && op.isWr && pc) || decide (endR + tm.tRTW ≤ t + now.wl))
  && (!(p.op.isWr && op.isRd && pc) || (decide (endW + tm.tWTRS ≤ t) && (!sameBg p.loc l || decide (endW + tm.tWTRL ≤ t))))
  -- precharge after data
  && (!(p.op.isWr && (op == .pre || op == .preab) && bank) || decide (endW + tm.tWR ≤ t))
  && (!(p.op.isRd && (op == .pre || op == .preab) && bank) || after tm.tRTP)
  -- refresh
  && (!(p.op == .refab && meets op l p.loc) || after tm.tRFCab)
  && (!(p.op == .refpb && opensBank && bank) || after tm.tRFCpb)
  && (!(p.op == .trf && opensBank && bank) || after tm.tTRF)
  -- mode registers and temperature
  && (!(p.op == .mrw && op == .mrw && p.loc.sid == l.sid) || after tm.tMRD)
  && (!(p.op == .mrw && op != .mrw && (!op.onDie || p.loc.sid == l.sid)) || after tm.tMOD)
  && (!(p.op == .tmp && op == .tmp && p.loc.sid == l.sid) || after tm.tTMP)
  -- power-down and self-refresh
  && (p.op != .pdx || after tm.tXP) && (p.op != .srx || after tm.tXS)

/-- R119: activations of a pseudo-channel counted in the window of tFAW that ends at `t`. -/
def fawCount (hist : List Issued) (l : Loc) (t : Nat) : Nat :=
  (hist.map fun p => if p.op.onPc && samePc p.loc l && decide (t < p.at_ + p.tim.tFAW) then fawWeight p.op else 0).sum

/-- R117: the history lets a command issue at `t`. -/
def State.timingAt (s : State) (n : Ch) (op : Zci) (l : Loc) (t : Nat) : Bool :=
  let h := (s.chan.get n).st.hist
  h.all (fun p => p.allows (s.tim n) op l t) &&
    (fawWeight op == 0 || decide (fawCount h l t + fawWeight op ≤ 4))

/-- R117: the engine may issue a command now. -/
def State.timingOk (s : State) (n : Ch) (op : Zci) (l : Loc) : Bool := s.timingAt n op l s.now

/-- How long an issued command can bind another (the largest windows of R117 are below this), ns. -/
def histWindow : Nat := 8192

/-- R118, R121: the ACT of a bank's row and the tRAS that binds it. -/
def Chan.lastRas (c : Chan) (tm : Timing) (l : Loc) : Nat :=
  match c.st.hist.reverse.find? fun p => p.op == .act && sameBank p.loc l with
  | some p => p.tim.tRAS
  | none => tm.tRAS

/-- The record of a command issued at `t`. -/
def State.record (s : State) (n : Ch) (op : Zci) (l : Loc) (t : Nat) : Issued :=
  let tm := s.tim n
  let c := s.chan.get n
  { op := op, at_ := t, loc := l, tim := tm, actAt := (c.bank l.bank).lastAct, actRas := c.lastRas tm l }

/-- A command on the buses of one channel, kept in its history, from which the frames follow (`Chan.rowFrameAt`). -/
def Chan.carry (c : Chan) (now : Nat) (p : Issued) (addr data : BitVec 8) : Chan :=
  let col := p.op.isCol
  c.updSt fun x =>
    { x with hist := x.hist.filter (fun q => decide (now ≤ q.at_ + histWindow)) ++ [{ p with addr := addr, data := data }],
             rowAt := if col then x.rowAt else some p.at_, colAt := if col then some p.at_ else x.colAt, lastCmd := p.at_ }

/-- A command goes out on its bus at `t` (R115, R275 to R278), to both channels of a joined pair (R37), and is kept in
the history. -/
def State.issueAt (s : State) (n : Ch) (op : Zci) (l : Loc) (addr data : BitVec 8) (t : Nat) : State :=
  let p := s.record n op l t
  (s.map.reach n).foldl (fun s k => s.updChan k fun c => c.carry s.now p addr data) s

def State.issue (s : State) (n : Ch) (op : Zci) (l : Loc) (addr data : BitVec 8) : State :=
  s.issueAt n op l addr data s.now

/-- R115: a row command may go out in CC `t`. -/
def Chan.rowFree (c : Chan) (t : Nat) : Bool :=
  match c.st.rowAt with
  | none => true
  | some u => decide (u < t)

/-- R115, R117: the first CC from `t` on, of the `k` looked at, in which a row command may go. -/
def State.rowSlot (s : State) (n : Ch) (op : Zci) (l : Loc) (t : Nat) : Nat → Nat
  | 0 => t
  | k + 1 => if (s.chan.get n).rowFree t && s.timingAt n op l t then t else s.rowSlot n op l (t + 1) k

/-- R115, R117: the first CC, after the commands that are on their way already, that the bus and the timing rules allow. -/
def State.soonAt (s : State) (n : Ch) (op : Zci) (l : Loc) : Nat :=
  let from_ := match (s.chan.get n).st.rowAt with
    | none => s.now
    | some t => max s.now (t + 1)
  s.rowSlot n op l from_ histWindow

/-- R115, R117: a row command outside the scheduler goes out in that CC. -/
def State.issueSoon (s : State) (n : Ch) (op : Zci) (l : Loc) (addr data : BitVec 8) : State :=
  s.issueAt n op l addr data (s.soonAt n op l)

/-- R118: the bank waits for the start of an auto-precharge. -/
def Chan.apWaits (c : Chan) (now : Nat) (b : BankIx) : Bool :=
  c.st.hist.any fun p => (p.op == .rda || p.op == .wra) && p.loc.bank == b && decide (now < p.ap)

/-- R121: the window of timing rule `i` that a command opened is still running. -/
def Issued.runs (p : Issued) (i : Fin 27) (now : Nat) : Bool :=
  let tm := p.tim
  let start : Nat :=
    if i = 1 && (p.op == .rda || p.op == .wra) then p.ap
    else if i = 12 then p.at_ + tm.rl + 2
    else if i = 13 || i = 14 || i = 15 then p.at_ + tm.wl + 2
    else p.at_
  let d : Nat := if p.op == .act && (i = 1 || i = 2 || i = 3) then max tm.tRC (tm.cc i) else tm.cc i
  decide (now < start + d)

/-- R121: a window that runs when a timing value is written ends with the larger value. -/
def Chan.growTim (c : Chan) (now : Nat) (i : Fin 27) (v : Nat) : Chan :=
  let grow := fun (p : Issued) =>
    { p with tim := if p.runs i now then ⟨upd p.tim.v i (max · v)⟩ else p.tim,
             actRas := if i = 2 && decide (now < p.actAt + p.actRas) then max p.actRas ((v + 1) / 2) else p.actRas }
  { c with st := { c.st with hist := c.st.hist.map grow } }

/-- R121, R146, R174: a timing value of a channel is written: it takes effect at once, but for the guard band, which has it
from the next CC; in a joined pair it binds the windows of both channels. -/
def State.writeTim (s : State) (n : Ch) (i : Fin 27) (v : Nat) : State :=
  let now := s.now
  let s := s.updChan n fun c => { c with tim := ⟨upd c.tim.v i fun _ => v⟩, timWas := some (now, c.timAt now) }
  (s.map.reach n).foldl (fun s k => s.updChan k fun c => c.growTim now i v) s

end Sys2Proof.Machine
end

