-- ==== Sys2Proof/Machine/Traffic.lean ====
section
/-! DEFINITION. Traffic control: refill, cap, gates, class arbitration (chapter 05). The register writes among these
steps are in Machine/Fabric.lean. -/

namespace Sys2Proof.Machine

/-! ## Refill boundaries (R157 to R165, R51, R140, R331) -/

/-- R162: one refill of a port, then its pending change. -/
def Port.refill (p : Port) : Port :=
  let c := min (1000 * p.force.cbs.toNat) (p.tokC + p.force.cir.toNat * 1024)
  let k := min (1000 * p.force.pbs.toNat) (p.tokP + p.force.pir.toNat * 1024)
  if !p.applyPend then { p with tokC := c, tokP := k }
  else
    let dc := 1000 * p.pend.cbs.toNat
    let dp := 1000 * p.pend.pbs.toNat
    let p := { p with force := p.pend, applyPend := false }
    if p.chgMode = 1 then { p with tokC := dc, tokP := dp }
    else if p.chgMode = 2 then { p with tokC := 0, tokP := 0 }
    else { p with tokC := min dc c, tokP := min dp k }

/-- R51, R140, R331: the cap at a boundary of the time base `tb`, and a fresh allowance. -/
def Chan.refill (c : Chan) (critCap : BitVec 6) (tb : Nat) : Chan :=
  c.updSt fun x =>
    let base := if x.capAt < tb then x.capIn else x.capBase
    let cap := if x.crit && decide (critCap.toNat < base.toNat) then critCap.setWidth 7 else base
    { x with capBase := base, cap := cap, colUsed := 0 }

/-- Let time pass until the time base reads `tb`; it counts only while the PLL is locked (R157). -/
def State.advanceTb (s : State) (tb : Nat) : State := s.advance (s.now + (tb - s.tb))

/-- R157: the next multiple of 64 of the time base. -/
def State.refillBoundary (s : State) : State :=
  if !s.clk.pllLock then s
  else
    let tb := s.clk.lastRefill + 64
    let s := s.advanceTb tb
    let cc := s.mgmt.therm.critCap
    let s := (s.mapPort fun _ p => p.refill).mapChan fun _ c => c.refill cc tb
    s.updClk fun k => { k with lastRefill := tb }

def execRefillBoundary (s : State) : Host.Outcome State Fault Refusal := .next s.refillBoundary

/-- R51: a cap on the broadcast bus arrives. -/
def State.capArrival (s : State) (n : Ch) : State :=
  match (s.chan.get n).st.capBus with
  | none => s
  | some v =>
    let tb := s.tb
    s.updChan n fun c => c.updSt fun x => if s.quadOn n then { x with capIn := v, capAt := tb, capBus := none } else { x with capBus := none }

def execCapArrival (n : Ch) (s : State) : Host.Outcome State Fault Refusal := .next (s.capArrival n)

/-- R161, R167: a red outcome counts in its module. -/
def State.countRed (s : State) (m : Mod) : State :=
  let h := s.hlm.get m
  let (w, hit) := countIn h.policeWin s.now 1000000 h.refuseThresh.toNat
  let s := s.updHlm m fun h => { h with policeCnt := satInc h.policeCnt, policeWin := some w }
  if hit then s.raise (evPolice m) 1 (BitVec.ofNat 24 w.thresh) (w32 w.count) else s

/-- R167: the window closes. -/
def State.policeWindowClose (s : State) (m : Mod) : State :=
  match (s.hlm.get m).policeWin with
  | none => s
  | some w => (s.advance (w.openedAt + w.length)).updHlm m fun h => { h with policeWin := none }

def execPoliceWindowClose (m : Mod) (s : State) : Host.Outcome State Fault Refusal := .next (s.policeWindowClose m)

/-! ## Gates (R172 to R179) -/

/-- The first cycle start at or after a time. -/
def GateList.startAt (l : GateList) (tb : Nat) : Nat := if l.pos tb = 0 then tb else tb + (l.cycle - l.pos tb)

/-- Time from the start of the cycle at which an entry ends. -/
def GateList.endOf (l : GateList) (i : Fin 16) : Nat :=
  ((List.range (i.val + 1)).map fun k => (l.dur.get (Fin.ofNat 16 k)).toNat).sum

/-- R173, R179: the mask of a list at time `t`, when its first cycle starts at or after `from_`. -/
def GateList.maskAt (l : GateList) (from_ t : Nat) : BitVec 16 :=
  if !l.en then 0xFFFF
  else if t < l.startAt from_ then l.mask.get l.last
  else l.mask.get (l.entryAt (l.pos t))

/-- R173, R179: the mask in force at a later time, a committed list's switch included. -/
def Gates.maskAt (g : Gates) (tb t : Nat) : BitVec 16 :=
  if !g.force.en then
    match g.commit with
    | some l => if g.commitAt.2 < t then l.maskAt (g.commitAt.2 + 1) t else 0xFFFF
    | none => 0xFFFF
  else
    let next := g.force.startAt (tb + 1)
    match g.commit with
    | some l => if next ≤ t then l.maskAt next t else if g.started then g.force.mask.get (g.force.entryAt (g.force.pos t))
        else g.force.maskAt tb t
    | none => if g.started then g.force.mask.get (g.force.entryAt (g.force.pos t)) else g.force.maskAt tb t

/-- R175: the class is open now and stays open for `len` ns. -/
def Chan.openThrough (c : Chan) (tb : Nat) (cls : BitVec 4) (len : Nat) : Bool :=
  c.isOpen cls && ((!c.gate.force.en && c.gate.commit.isNone) || (List.range len).all fun d => (c.gate.maskAt tb (tb + d)).getLsbD cls.toNat)

/-- R173, R179: the next cycle of the list in force starts. -/
def State.gateCycleStart (s : State) (n : Ch) : State :=
  let old := (s.chan.get n).gate
  let fresh := !old.force.en && old.commitAt.1 == s.now
  let g := old.settle (s.now + 1)
  if !g.force.en || !s.clk.pllLock then s
  else
    let t := g.force.startAt (if fresh || (g.started && g.cycleAt == s.tb) then s.tb + 1 else s.tb)
    let s := s.advanceTb t
    s.updChan n fun c => { c with gate := match g.commit with
      | some l => g.switch l t
      | none => { g with started := true, cycleAt := t, entry := g.force.entryAt 0 } }

/-- R173: an entry's duration ends before its cycle does; the last entry ends with the cycle. -/
def State.gateEntryEnd (s : State) (n : Ch) : State :=
  let g := (s.chan.get n).gate.settle s.now
  let e := g.force.endOf g.entry
  if !g.force.en || !s.clk.pllLock || !g.started || g.entry == g.force.last || decide (g.force.cycle ≤ e) then s
  else
    let s := s.advanceTb (g.cycleAt + e)
    s.updChan n fun c => { c with gate := { g with entry := g.force.entryAt e } }

/-! ## Class arbitration (R168) -/

def Chan.weight (c : Chan) (k : Nat) : Nat := (c.cfg.weight.get (Fin.ofNat 16 k)).toNat

/-- R168: at least one entry, and the gate is open. -/
def Chan.backlogged (c : Chan) (k : Nat) : Bool :=
  c.isOpen (BitVec.ofNat 4 k) && c.st.tt.any fun e => e.cls.toNat == k

/-- The weighted classes in the order that starts at `p` (3 to 15). -/
def weightedFrom (p : Nat) : List Nat := (List.range 13).map fun i => 3 + (p - 3 + i) % 13

/-- R168: class_order(), as the pseudocode gives it: the class at ptr comes first, even where its weight is 0 (log entry 61,
DESIGN CHOICE). -/
def Chan.classOrder (c : Chan) : List Nat :=
  let w := weightedFrom c.st.ptr.toNat
  [0, 1, 2] ++ (c.st.ptr.toNat :: w.tail.filter fun k => decide (0 < c.weight k)) ++
    ((List.range 13).map (· + 3)).filter fun k => c.weight k == 0 && k != c.st.ptr.toNat

def Chan.deficitOf (c : Chan) (k : Nat) : Int := c.st.deficit.get (Fin.ofNat 16 k)
/-- R168: deficits are clamped to the range −1,023 to +1,023. -/
def Chan.setDeficit (c : Chan) (k : Nat) (d : Int) : Chan :=
  c.updSt fun x => { x with deficit := upd x.deficit (Fin.ofNat 16 k) fun _ => max (-1023) (min 1023 d) }

/-- R168: advance(); the loop ends because a weight is added at each visit. -/
def Chan.drrAdvance (c : Chan) : Nat → Chan
  | 0 => c
  | k + 1 =>
    match (weightedFrom c.st.ptr.toNat).tail.find? (fun j => decide (0 < c.weight j) && c.backlogged j) with
    | some j =>
      let c := (c.updSt fun x => { x with ptr := BitVec.ofNat 4 j }).setDeficit j (c.deficitOf j + c.weight j)
      if 0 < c.deficitOf j then c else c.drrAdvance k
    | none =>
      let j := c.st.ptr.toNat
      if 0 < c.weight j ∧ c.backlogged j = true then
        let c := c.setDeficit j (c.deficitOf j + c.weight j)
        if 0 < c.deficitOf j then c else c.drrAdvance k
      else c

/-- R168, R169: a column command for an entry is charged. -/
def Chan.charge (c : Chan) (cls : BitVec 4) (yellow : Bool) : Chan :=
  let k := cls.toNat
  if k < 3 ∨ c.weight k = 0 then c
  else
    let cost : Int := if yellow then c.cfg.yellowCost.toNat + 1 else 1
    let c := c.setDeficit k (c.deficitOf k - cost)
    if c.deficitOf k ≤ 0 ∨ c.backlogged c.st.ptr.toNat = false then c.drrAdvance 13400 else c

/-- R168: every CC, the deficit of a class that is not backlogged is 0. -/
def Chan.clearDeficits (c : Chan) : Chan :=
  c.updSt fun x => { x with deficit := Vector.ofFn fun i =>
    if 3 ≤ i.val && !c.backlogged i.val then 0 else x.deficit.get i }

end Sys2Proof.Machine
end

