-- ==== Sys2Proof/Machine/Rows.lean ====
section
/-! DEFINITION. What each row command does to the engine: banks and page policy (R144, R145), refresh debts (R252 to
R254), trackers (R261 to R264). -/

namespace Sys2Proof.Machine

/-- The first element of least value. -/
def minOn {α : Type} (f : α → Nat) : List α → Option α
  | [] => none
  | x :: r =>
    match minOn f r with
    | none => some x
    | some y => if f y < f x then some y else some x

/-! ## Closing and opening rows (R144, R145) -/

/-- Why a PRE is issued: for another row, by the page timer, or otherwise. -/
inductive PreWhy where
  | conflict | timer | other
  deriving DecidableEq, Repr

/-- R145: a row closes. -/
def Chan.closeRow (c : Chan) (tRP now : Nat) (b : BankIx) (why : PreWhy) : Chan :=
  let x := c.bank b
  match x.row with
  | none => c
  | some r =>
    let idle := match x.lastCol with
      | none => true
      | some t => decide (t + tRP ≤ now)
    let clash := why == .conflict && idle
    let ladder := if clash && c.cfg.pageMode == 0 && decide (c.cfg.tmin.toNat < x.ladder) then x.ladder - 1 else x.ladder
    let by_ := if why == .timer then some (r, now, ladderNs (c.pageIdx b), false) else none
    let c := if clash then c.updCnt fun k => { k with confl := k.confl + 1 } else c
    (c.updBank b fun x => { x with row := none, expired := false, ladder := ladder, closedBy := by_ }).rehit

/-- R118, R145: an auto-precharge closes the row. -/
def Chan.autoClose (c : Chan) (b : BankIx) (ap : Nat) : Chan :=
  (c.updBank b fun x =>
    { x with row := none, expired := false, closedBy := x.row.map fun r => (r, ap, 0, true) }).rehit

/-- R118, R121, R145: when a row closed: at its PRE, or at the start of the auto-precharge of its last command, which a write
of a timing value may have put off. -/
def Chan.closeTime (c : Chan) (b : BankIx) (t : Nat) (auto_ : Bool) : Nat :=
  if !auto_ then t
  else
    match c.st.hist.reverse.find? fun p => (p.op == .rda || p.op == .wra) && p.loc.bank == b with
    | some p => p.ap
    | none => t

/-- R145: an ACT that reopens, soon after, the row which a timeout or an auto-precharge closed. -/
def Chan.premature (c : Chan) (b : BankIx) (row : BitVec 14) (now : Nat) : Bool :=
  match (c.bank b).closedBy with
  | none => false
  | some (r, t, tmo, auto_) => r == row && decide (now ≤ c.closeTime b t auto_ + max 64 (4 * tmo))

/-- R144, R145: a row opens. -/
def Chan.openRow (c : Chan) (now : Nat) (b : BankIx) (row : BitVec 14) : Chan :=
  let x := c.bank b
  let up := c.premature b row now && c.cfg.pageMode == 0 && decide (x.ladder < c.cfg.tmax.toNat)
  ((c.updCnt fun k => { k with act := k.act + 1 }).updBank b fun x =>
    { x with row := some row, ladder := if up then x.ladder + 1 else x.ladder, timerAt := now, expired := false,
             lastAct := now, actSeen := true, lastCol := none, closedBy := none, paced := false }).rehit

/-! ## Trackers (R261 to R264) -/

def TrkEnt.estimate (e : TrkEnt) (s : BitVec 15) : Nat := e.v.toNat - s.toNat

/-- R262: the lowest-numbered free entry. An entry never used is free. -/
def Tracker.freeIx (t : Tracker) : Option Nat :=
  (List.range 128).find? fun i => t.ents.all fun e => e.i != i || (!e.sweep && !t.valid e)

def Tracker.validOf (t : Tracker) (row : BitVec 14) : Option TrkEnt := t.ents.find? fun e => t.valid e && e.row == row
def Tracker.sweepOf (t : Tracker) (row : BitVec 14) : Option TrkEnt := t.ents.find? fun e => e.sweep && e.row == row

/-- Entry `e.i` is written, in index order. -/
def trkPut (e : TrkEnt) : List TrkEnt → List TrkEnt
  | [] => [e]
  | x :: r => if x.i < e.i then x :: trkPut e r else if x.i = e.i then e :: r else e :: x :: r

/-- R262: the row whose TRF an ACT of `row` must wait for. -/
def Tracker.beforeAct (t : Tracker) (row : BitVec 14) : Option (BitVec 14) :=
  if t.drain then none
  else
    match t.sweepOf row with
    | some e => some e.row
    | none =>
      if (t.validOf row).isSome || t.freeIx.isSome then none else (t.ents.find? (·.sweep)).map (·.row)

/-- R261: the entry is freed where its estimate reaches the threshold; the Boolean says so. -/
def Tracker.record (t : Tracker) (thresh : Nat) (e : TrkEnt) : Tracker × Bool :=
  if thresh ≤ e.estimate t.s then ({ t with ents := trkPut { e with v := t.s } t.ents }, true)
  else ({ t with ents := trkPut e t.ents }, false)

/-- R262, R466: an ACT that no TRF holds up. -/
def Tracker.act (t : Tracker) (thresh : Nat) (row : BitVec 14) : Tracker × Bool :=
  if t.drain then ({ t with drainTrf := 0 }, false)
  else
    match t.validOf row with
    | some e => t.record thresh { e with v := e.v + 1 }
    | none =>
      match t.freeIx with
      | some i => t.record thresh { i := i, row := row, v := t.s + 1, sweep := false, sweepAt := 0, perr := false }
      | none => ({ t with s := t.s + 1 }, false)

/-- R262, R263, R466: a TRF of a row frees its sweep entry; in a drain every entry of the row. -/
def Tracker.trf (t : Tracker) (row : BitVec 14) : Tracker :=
  if t.drain then { t with ents := t.ents.filter (·.row != row), drainTrf := t.drainTrf + 1 }
  else { t with ents := t.ents.map fun e => if e.sweep && e.row == row then { e with sweep := false, v := t.s } else e }

/-! ## Row commands -/

/-- PREab to every pseudo-channel and SID; of a row that had closed before, R145 goes on knowing why. -/
def Chan.closeAll (c : Chan) : Chan :=
  (c.updSt fun x => { x with banks := x.banks.map fun b =>
    { b with row := none, expired := false, closedBy := if b.row.isSome then none else b.closedBy } }).rehit

/-- R237, R283: a die in its repair mode takes no other command. -/
def Chan.mrwBarred (c : Chan) (sid : SidIx) : Bool :=
  match c.repair with
  | none => false
  | some r => (r.phase == 5 || r.phase == 6 || r.phase == 7 || r.phase == 8 || r.phase == 9) && r.loc.sidIx == sid

/-- R237, R283: the die of a pseudo-channel and SID runs its repair sequence, and takes no command there. -/
def Chan.inSequence (c : Chan) (p : Pc) (sid : SidIx) : Bool :=
  match c.repair with
  | none => false
  | some r => r.phase == 7 && r.loc.pcIx == p && r.loc.sidIx == sid

/-- R283: another command to the die between the two MRWs of the guard cancels it: the first is sent again. -/
def Chan.unguard (c : Chan) : Chan := { c with repair := c.repair.map fun r => if r.phase = 5 then { r with phase := 4 } else r }

/-- R237, R283: no MRW, PDE or SRE outside the scheduler goes to the dies of the channel while a repair holds one in its mode. -/
def Chan.repairHolds (c : Chan) : Bool :=
  match c.repair with
  | none => false
  | some r => decide (5 ≤ r.phase) && decide (r.phase ≤ 9)

/-- R237, R283: a die of the channel runs its repair sequence, or has not left its repair mode after it. -/
def Chan.repairRuns (c : Chan) : Bool :=
  match c.repair with
  | none => false
  | some r => decide (7 ≤ r.phase) && decide (r.phase ≤ 9)

/-- R259: the dies of the channel are out of power-down for a burst. -/
def Chan.inBurst (c : Chan) : Bool := c.st.pwr == .powerDown && (c.rf.burst.get 0 || c.rf.burst.get 1)

/-- ACT: the bus, the row, the tracker, a trigger. -/
def State.doAct (s : State) (n : Ch) (l : Loc) : State :=
  let now := s.now
  let b := l.bank
  let s := s.issue n .act l 0 0
  s.updBanks n fun c =>
    let c := c.openRow now b l.row
    let (t, hit) := (c.trk b).act c.cfg.thresh.toNat l.row
    let c := c.updTrk b fun _ => t
    if hit then c.updRf fun r => { r with trf := r.trf ++ [{ bank := b, row := l.row, why := .trig, at_ := now }] } else c

def State.doPre (s : State) (n : Ch) (b : BankIx) (why : PreWhy) : State :=
  let now := s.now
  (s.issue n .pre (bankLoc b 0 0) 0 0).updBanks n (·.closeRow (s.tim n).tRP now b why)

/-- The banks of a pseudo-channel and SID. -/
def sidBanks (b : BankIx) : List BankIx := allBank.filter fun k => k.val / 16 == b.val / 16

def State.doPreab (s : State) (n : Ch) (b : BankIx) : State :=
  let now := s.now
  (s.issue n .preab (bankLoc b 0 0) 0 0).updBanks n fun c => (sidBanks b).foldl (fun c k => c.closeRow (s.tim n).tRP now k .other) c

/-- R253: a refresh command lowers the unit's debt, and pays its earliest tick. -/
def Refresh.pay (r : Refresh) (u : BankIx) : Refresh :=
  { r with debt := upd r.debt u (· - 1), owed := upd r.owed u List.tail }

def State.doRef (s : State) (n : Ch) (u : BankIx) : State :=
  let c := s.chan.get n
  let late := decide (8 ≤ c.rf.debt.get u)
  let tick := (c.rf.owed.get u).headD 0
  let s := s.issue n (if c.cfg.refAllBank then .refab else .refpb) (bankLoc u 0 0) 0 0
  let s := s.updChan n fun c => c.updSt fun x =>
    { x with hist := x.hist.dropLast ++ x.hist.getLast?.toList.map fun p => { p with tick := tick } }
  s.updChan n fun c => (c.updRf fun r => r.pay u).updCnt fun k =>
    { k with ref := k.ref + 1, refDl := if late then k.refDl + 1 else k.refDl }

/-- R264: TRF of a row. -/
def State.doTrf (s : State) (n : Ch) (b : BankIx) (row : BitVec 14) (trig : Bool) : State :=
  let sweep := ((s.chan.get n).trk b).sweepOf row |>.isSome
  let late := (s.chan.get n).rf.trf.any fun q => q.bank == b && q.row == row && q.why == .sweep
  let now := s.now
  let s := s.issue n .trf (bankLoc b row 0) 0 0
  s.updChan n fun c =>
    ((c.updTrk b fun t => { t.trf row with lastSweepDl := if late then some now else t.lastSweepDl }).updRf fun r =>
      { r with trf := r.trf.filter fun q => !(q.bank == b && q.row == row) }).updCnt fun k =>
      { k with trfTrig := if trig then k.trfTrig + 1 else k.trfTrig,
               trfSweep := if !trig && sweep then k.trfSweep + 1 else k.trfSweep }

/-- R249, R280: a TMP goes out; its answer comes with TMP_READING. -/
def State.doTmp (s : State) (n : Ch) (p : Pc) (sid : SidIx) : State :=
  let s := s.issue n .tmp { pc := BitVec.ofNat 1 p.val, sid := BitVec.ofNat 2 sid.val, bg := 0, ba := 0, row := 0, col := 0 } 0 0
  let s := s.updChan n fun c => c.updRf fun r => { r with tmpDue := r.tmpDue.filter (· != sid) }
  (s.map.reach n).foldl (fun s k => s.updChan k fun c => c.updRf fun r => { r with tmpSent := r.tmpSent ++ [sid] }) s

/-- The place of a mode-register command to the die of a SID. -/
def dieLoc (sid : SidIx) : Loc := { pc := 0, sid := BitVec.ofNat 2 sid.val, bg := 0, ba := 0, row := 0, col := 0 }

/-- A value that an MRW has written at `t` to the dies of a SID, of both channels of a joined pair. -/
def State.putDies (s : State) (n : Ch) (sid : SidIx) (t : Nat) (addr v : BitVec 8) : State :=
  (s.map.reach n).foldl (fun s k => s.updChan k fun c => { c with dies := upd c.dies sid (·.put t addr.toNat v) }) s

/-- MRW to the die of a SID; both channels of a joined pair. -/
def State.doMrw (s : State) (n : Ch) (sid : SidIx) (addr v : BitVec 8) : State :=
  (s.issue n .mrw (dieLoc sid) addr v).putDies n sid s.now addr v

/-- MRW of an address to the die of every SID, outside the scheduler (R115, R117: one after another); not to a die in a repair
sequence. -/
def State.mrwAll (s : State) (n : Ch) (addr : Nat) (v : BitVec 8) : State :=
  let a := BitVec.ofNat 8 addr
  let sids := (List.finRange 4).filter fun i => !(s.chan.get n).inSequence 0 i && !(s.chan.get n).inSequence 1 i
  sids.foldl (fun s i =>
    let t := s.soonAt n .mrw (dieLoc i)
    (s.issueAt n .mrw (dieLoc i) a v t).putDies n i t a v) (s.updChan n Chan.unguard)

/-- R39, R286, R298: MRW of an address to the die of every SID of one channel, whose PHY applies its own lanes; the other channel
of a joined pair takes no command in that CC, and the rules that follow an MRW bind the pair. -/
def State.mrwOwn (s : State) (k : Ch) (addr : Nat) (v : BitVec 8) : State :=
  let e := s.map.server k
  let a := BitVec.ofNat 8 addr
  (List.finRange 4).foldl (fun s i =>
    let t := s.soonAt e .mrw (dieLoc i)
    let p := s.record e .mrw (dieLoc i) t
    let s := (s.map.reach k).foldl (fun s j => s.updChan j fun c => c.carry s.now { p with own := j == k } a v) s
    s.updChan k fun c => { c with dies := upd c.dies i (·.put t addr v) }) s

/-- PREab to every pseudo-channel and SID, outside the scheduler (R115, R117: one after another); not to one whose die runs a
repair sequence (R237, R283). -/
def State.preabAll (s : State) (n : Ch) : State :=
  let bs := ((List.range 8).map fun i => (Fin.ofNat 128 (16 * i) : BankIx)).filter fun b =>
    !(s.chan.get n).inSequence (bankPc b) (bankSid b)
  let s := bs.foldl (fun s b => s.issueSoon n .preab (bankLoc b 0 0) 0 0) (s.updChan n Chan.unguard)
  s.updBanks n Chan.closeAll

/-- R280: MRR to the die of a SID: its burst (`Die.answer`) comes back on the lanes of a pseudo-channel, and TMP_READING brings
what has arrived of it. -/
def State.doMrr (s : State) (n : Ch) (sid : SidIx) (p : Pc) (addr : BitVec 8) : State :=
  let now := s.now
  (s.issue n .mrr { dieLoc sid with pc := BitVec.ofNat 1 p.val } addr 0).updChan n fun c => c.updSt fun x =>
    { x with mrVal := none, mrSent := x.mrSent ++ [(sid, now)] }

/-- The command and place of a mode-register access that firmware asks for. -/
def MrAsk.op (q : MrAsk) : Zci := match q.act with
  | .inl _ => .mrw
  | .inr _ => .mrr
def MrAsk.loc (q : MrAsk) : Loc := match q.act with
  | .inl _ => dieLoc q.sid
  | .inr p => { dieLoc q.sid with pc := BitVec.ofNat 1 p.val }

/-- R117, R141, R154: the access may go now: not to a die in a repair, nor to the lanes of a pseudo-channel in a pause. -/
def State.mrOk (s : State) (n : Ch) (q : MrAsk) : Bool :=
  let c := s.chan.get n
  !c.mrwBarred q.sid && s.timingOk n q.op q.loc && match q.act with
    | .inl _ => true
    | .inr p => !c.offline p

def State.doMr (s : State) (n : Ch) (q : MrAsk) : State := match q.act with
  | .inl v => s.doMrw n q.sid q.addr v
  | .inr p => s.doMrr n q.sid p q.addr

/-- R154: a mode-register access of firmware: it goes at once where the bus and the timing rules allow it, else it waits for
them. -/
def State.askMr (s : State) (n : Ch) (q : MrAsk) : State :=
  let c := s.chan.get n
  if c.st.mrq.isEmpty && c.rowFree s.now && c.st.pwr == .active && c.st.recov == .none && s.mrOk n q then s.doMr n q
  else s.updChan n fun c => c.updSt fun x => { x with mrq := x.mrq ++ [q] }

/-! ## Pauses asked for (R297) -/

/-- R297: a pause that cannot start waits: scheduled ones ahead of urgent ones, each in the order requested. -/
def waitPause (l : List PauseReq) (r : PauseReq) : List PauseReq :=
  if l.contains r then l
  else if r.sched then l.filter (·.sched) ++ [r] ++ l.filter (!·.sched) else l ++ [r]

/-- An urgent pause is asked for (R297, R301, R304). -/
def State.askUrgent (s : State) (n : Ch) (pc : Option Pc) : State :=
  s.updFw fun f => { f with urgent := waitPause f.urgent { n := s.map.server n, pc := pc, sched := false } }

end Sys2Proof.Machine
end

