-- ==== Sys2Proof/Machine/Sched.lean ====
section
/-! DEFINITION. The scheduler of a channel engine: write mode, the column choice and the row choice of one CC (R132,
R138 to R146, R235, R252 to R263). -/

namespace Sys2Proof.Machine

/-! ## Candidates -/

/-- What competes for the buses: a table entry that awaits its column command, or a line-buffer slot whose write-back
has been asked for (R134; log entry 14, DEDUCED). -/
structure Cand where
  ent : Option Entry
  slot : Option (Fin 16)
  cls : BitVec 4
  loc : Loc
  age : Nat
  write : Bool
  yellow : Bool
  hit : Bool
  aged : Bool
  at_ : Nat
  deriving DecidableEq, Repr

def Chan.entCand (c : Chan) (e : Entry) : Cand :=
  { ent := some e, slot := none, cls := e.cls, loc := e.loc, age := e.age, write := e.isWrite, yellow := e.yellow,
    hit := e.st == .hit, aged := decide (c.cfg.ageCap.toNat ≤ e.passed.toNat), at_ := e.at_ }

def Chan.slotCand (c : Chan) (i : Fin 16) (x : LbSlot) (l : Loc) : Cand :=
  { ent := none, slot := some i, cls := x.cls.getD c.cfg.maintCls, loc := l, age := x.wbAge, write := true, yellow := false,
    hit := (c.bank l.bank).row == some l.row, aged := false, at_ := x.wbAsk }

/-- Slots whose write-back waits. -/
def Chan.slotCands (c : Chan) : List Cand :=
  (List.finRange 16).filterMap fun i =>
    let x := c.st.lb.get i
    match x.line with
    | none => none
    | some l => if x.dirty && x.wb then some (c.slotCand i x l) else none

/-- Entries in WAIT and HIT (HINTs apart, R143) and slots to be written back. -/
def Chan.cands (c : Chan) : List Cand :=
  (c.st.tt.filter fun e => e.waits && e.kind != .hint).map c.entCand ++ c.slotCands

/-- R126: the candidates of CC `now`: a maintenance access that entered in it takes no command yet, since a request of the
same CC is the older of the two (log entry 53, DEDUCED). -/
def Chan.candsAt (c : Chan) (now : Nat) : List Cand :=
  c.cands.filter fun k => !(k.ent.any (·.lateMaint now))

/-! ## Write mode (R132) -/

/-- Writes of a pseudo-channel: those of open classes whose command has not been issued, in HOLD too (log entry 14, DEDUCED). -/
def Chan.writesOf (c : Chan) (p : Pc) : List Cand :=
  ((c.st.tt.filter fun e => e.isWrite && (e.waits || e.st == .chain || e.st == .hold)).map c.entCand ++ c.slotCands).filter fun k =>
    k.loc.pcIx == p && c.isOpen k.cls

def Chan.readEligible (c : Chan) (p : Pc) : Bool :=
  c.st.tt.any fun e => e.waits && e.kind != .hint && !e.isWrite && e.loc.pcIx == p && c.isOpen e.cls

/-- How long the oldest write may wait, ns. -/
def Chan.wrAgeNs (c : Chan) (now : Nat) : Nat := 64 * 2 ^ (c.cfgAt now).wrAge.toNat

/-- R138, R139: an entry for which no column command has been issued (not a HINT, R143) has been passed age_cap times. -/
def Chan.isAged (c : Chan) (e : Entry) : Bool :=
  e.unissued && e.kind != .hint && decide (c.cfg.ageCap.toNat ≤ e.passed.toNat)

/-- R139: an older aged entry of the class, pseudo-channel and direction; to the accesses of a repair copy, not one that
waits for the bank which the repair holds (R235; log entry 12, DEDUCED). -/
def Chan.agedOlder (c : Chan) (k : Cand) : Bool :=
  c.st.tt.any fun o => c.isAged o && !(k.ent.any (·.isRepair) && o.loc.bank == k.loc.bank) && decide (o.age < k.age) && o.cls == k.cls && o.loc.pc == k.loc.pc && o.isWrite == k.write

/-- R130: the write queue of a pseudo-channel: its writes that await a WR. -/
def Chan.writeQueue (c : Chan) (p : Pc) : List Cand := c.writesOf p

/-- R138, R139: this write gets no row and no WR before a read that only read mode serves: its bank holds another row for one, or it
stands behind an aged write (which is itself in the queue). -/
def Chan.rowStuck (c : Chan) (k : Cand) : Bool :=
  (!k.hit && !k.aged && (c.bank k.loc.bank).row.isSome && c.st.tt.any fun o =>
    o.st == .hit && !o.isWrite && o.loc.bank == k.loc.bank && c.isOpen o.cls) || c.agedOlder k

/-- R129: this write cannot come to its WR before a read that only read mode serves, or a gate opens: by its own row, or in CHAIN behind
an access to its line of which that is true. -/
def Chan.behindRead (c : Chan) (k : Cand) : Bool :=
  match k.ent with
  | none => c.rowStuck k
  | some e =>
    if e.st = .chain then
      c.agedOlder k || c.st.tt.any fun o => o.loc == e.loc && decide (o.age < e.age) && o.waits
        && (!o.isWrite || !c.isOpen o.cls || c.rowStuck (c.entCand o))
    else if e.waits then c.rowStuck k
    else c.agedOlder k

/-- R132: a read is eligible, and not one write of the queue can come to its WR before a read: in write mode the pseudo-channel
would issue nothing for ever (log entry 51, DEDUCED). -/
def Chan.writesStuck (c : Chan) (p : Pc) : Bool :=
  c.readEligible p && (c.writeQueue p).all c.behindRead

/-- R132: the conditions for entering write mode, or for leaving it, which at least one write comes before unless the
queue empties first; where every write is stuck behind reads, the pseudo-channel reads (log entry 51, DEDUCED). -/
def Chan.modeSwitch (c : Chan) (now : Nat) (p : Pc) : Bool :=
  let f := c.cfgAt now
  let q := c.writeQueue p
  let rd := c.readEligible p
  if c.st.wmode.get p then
    q.isEmpty || c.writesStuck p || (rd && decide (0 < c.st.wcount.get p)
      && (decide (q.length ≤ f.lo.toNat) || decide (f.drainMax.toNat ≤ c.st.wcount.get p)))
  else !c.writesStuck p &&
    (decide (f.hi.toNat ≤ q.length) || (!q.isEmpty && !rd) || q.any fun k => decide (k.at_ + c.wrAgeNs now < now))

def Chan.setMode (c : Chan) (now : Nat) (p : Pc) (w : Bool) : Chan :=
  c.updSt fun x => { x with wmode := upd x.wmode p fun _ => w, wcount := upd x.wcount p fun _ => 0,
                            modeAt := upd x.modeAt p fun _ => some now }

/-- R132: a pseudo-channel changes mode at most once per CC. -/
def Chan.updMode (c : Chan) (now : Nat) (p : Pc) : Chan :=
  if c.modeSwitch now p && c.st.modeAt.get p != some now then c.setMode now p !(c.st.wmode.get p) else c

/-! ## Deadlines (R253, R254, R257, R258, R263, R466) -/

/-- R252: the unit of a bank. -/
def Chan.unitOf (c : Chan) (b : BankIx) : BankIx := if c.cfg.refAllBank then Fin.ofNat 128 (b.val / 16 * 16) else b
def Chan.unitBanks (c : Chan) (u : BankIx) : List BankIx := if c.cfg.refAllBank then sidBanks u else [u]
/-- The units of the SIDs in use. -/
def Chan.units (c : Chan) (nsid : Nat) : List BankIx :=
  allBank.filter fun b => c.unitOf b == b && decide ((bankSid b).val < nsid)

/-- R235: the bank that the repair sequencer holds. -/
def Chan.repairBank (c : Chan) : Option BankIx :=
  match c.repair with
  | none => none
  | some r => if r.phase = 0 then none else some r.loc.bank

/-- R237: the die refreshes a pseudo-channel and SID itself. -/
def Chan.dieRefreshes (c : Chan) (b : BankIx) : Bool :=
  match c.repair with
  | none => false
  | some r => r.hard && r.phase == 7 && r.loc.bank.val / 16 == b.val / 16

/-- R235, R237, R298: nothing of this kind is issued to the bank. -/
def Chan.barred (c : Chan) (b : BankIx) : Bool :=
  c.heldOff (bankPc b) || c.dieRefreshes b || c.repairBank == some b

def Chan.closing (c : Chan) (p : Pc) : Bool := (c.pc.get p).pause == .closing

/-- R258: a repair waits for the unit's debt. -/
def Chan.repairWants (c : Chan) (u : BankIx) : Bool :=
  match c.repair with
  | none => false
  | some r => r.phase == 0 && c.unitOf r.loc.bank == u && decide (4 < c.rf.debt.get u)

/-- R253, R257, R258: units whose refresh has deadline priority. -/
def Chan.dueUnits (c : Chan) (nsid : Nat) : List BankIx :=
  (c.units nsid).filter fun u =>
    let d := c.rf.debt.get u
    !(c.unitBanks u).any c.barred && (decide (8 ≤ d) || (decide (1 ≤ d) && c.closing (bankPc u)) || c.repairWants u)

/-- R262: a repair that has begun its guard holds the TRFs of its bank off until the row is the new one. -/
def Chan.trfBarred (c : Chan) (b : BankIx) : Bool :=
  c.heldOff (bankPc b) || c.dieRefreshes b || (c.repairBank == some b && c.repair.any fun r => decide (4 ≤ r.phase) && decide (r.phase ≤ 9))

/-- R262, R466: an ACT of the bank waits for a triggered TRF, or for the next 8 of its drain. -/
def Chan.trfFirst (c : Chan) (b : BankIx) : Bool :=
  (c.rf.trf.any fun r => r.bank == b && r.why == .trig) || ((c.trk b).drain && decide ((c.trk b).drainTrf < 8))

/-- R466: the oldest entry that waits for a bank whose tracker drains, of those whose ACT its gate (`ok`, R175, R178), the aged
entries (R139), a repair (R235) and a trip do not refuse. -/
def Chan.drainWaiter (c : Chan) (ok : BitVec 4 → Bool) (b : BankIx) : Option Entry :=
  if c.st.tripHold then none
  else c.st.tt.find? fun e => e.waits && e.kind != .hint && e.loc.bank == b && c.isOpen e.cls && ok e.cls && !c.offline e.loc.pcIx
    && (c.repairBank != some b || e.isRepair) && !c.agedOlder (c.entCand e)

/-- R466: in a drain the ACT of the bank goes to that entry. -/
def Chan.drainTurn (c : Chan) (ok : BitVec 4 → Bool) (k : Cand) : Bool :=
  !(c.trk k.loc.bank).drain || (c.drainWaiter ok k.loc.bank).map (·.idx) == k.ent.map (·.idx)

/-- The rows of a draining tracker, in index order; held back after every 8 TRFs while an entry of the bank waits that may have
its ACT, or one has just got its row (R178, R466). -/
def Chan.drainReqs (c : Chan) (ok : BitVec 4 → Bool) (b : BankIx) : List TrfReq :=
  let t := c.trk b
  let waiting := (c.drainWaiter ok b).isSome
  let fresh := (c.bank b).row.isSome && (c.bank b).lastCol.isNone && c.pendingHit b
  if !t.drain || (decide (8 ≤ t.drainTrf) && waiting) || fresh then []
  else (t.ents.filter fun e => e.sweep || t.valid e).map fun e => { bank := b, row := e.row, why := .drain, at_ := 0 }

/-- R257: the sweep entries of a closing pseudo-channel. -/
def Chan.closingReqs (c : Chan) (b : BankIx) : List TrfReq :=
  if c.closing (bankPc b) then
    ((c.trk b).ents.filter (·.sweep)).map fun e => { bank := b, row := e.row, why := .sweep, at_ := e.sweepAt }
  else []

/-- TRFs with deadline priority, in their order: triggered, of drains and sweeps, before an activation. -/
def Chan.dueTrfs (c : Chan) (ok : BitVec 4 → Bool) : List TrfReq :=
  let l := c.rf.trf.filter fun r => !c.trfBarred r.bank
  let own := allBank.flatMap fun b => if c.trfBarred b then [] else c.drainReqs ok b ++ c.closingReqs b
  l.filter (·.why == .trig) ++ own ++ l.filter (fun r => r.why == .sweep || r.why == .drain) ++
    l.filter (·.why == .beforeAct)

/-- R467: an entry is ready. -/
def Chan.isReady (c : Chan) (e : Entry) : Bool :=
  e.waits && e.kind != .hint && c.isOpen e.cls && c.repairBank != some e.loc.bank && !c.offline e.loc.pcIx
    && decide (0 < c.st.cap.toNat) && !c.st.tripHold

def Chan.anyReady (c : Chan) : Bool := c.st.tt.any c.isReady

/-- R467: a refresh or TRF is at its deadline. -/
def Chan.anyDue (c : Chan) (nsid : Nat) (ok : BitVec 4 → Bool) : Bool := !(c.dueUnits nsid).isEmpty || !(c.dueTrfs ok).isEmpty

/-- R467: what the scheduler watchdog sees of this CC. -/
def Chan.watch (c : Chan) (cc nsid : Nat) (ok : BitVec 4 → Bool) : Chan :=
  let since := fun (on : Bool) (o : Option Nat) => if on then some (o.getD cc) else none
  c.updSt fun x => { x with readyAt := since c.anyReady x.readyAt, dueAt := since (c.anyDue nsid ok) x.dueAt }

/-- What holds the deadline branch of pick_row. -/
inductive Due where
  | ref (u : BankIx)
  | trf (r : TrfReq)
  | tmp (p : Pc) (sid : SidIx)
  deriving DecidableEq, Repr

/-- The bank index of a pseudo-channel and SID's first bank. -/
def sidBank (p : Pc) (sid : SidIx) : BankIx := Fin.ofNat 128 (64 * p.val + 16 * sid.val)

/-- R237, R283, R298: the pseudo-channel gives the SID's temperature: it is in no pause, and its die in no hard-repair sequence. -/
def Chan.tmpMay (c : Chan) (p : Pc) (sid : SidIx) : Bool := !c.heldOff p && !c.dieRefreshes (sidBank p sid)

/-- The pseudo-channel through which a SID's temperature is read (log entry 15, DESIGN CHOICE). -/
def Chan.tmpPc (c : Chan) (sid : SidIx) : Pc := if c.tmpMay 0 sid then 0 else 1

/-- R254: the first of the deadline commands, of those to the dies that `free` names. -/
def Chan.firstDue (c : Chan) (nsid : Nat) (ok : BitVec 4 → Bool) (free : SidIx → Bool) : Option Due :=
  match minOn (fun u => (c.rf.owed.get u).headD 0) ((c.dueUnits nsid).filter fun u => free (bankSid u)) with
  | some u => some (.ref u)
  | none =>
    match (c.dueTrfs ok).filter fun r => free (bankSid r.bank) with
    | r :: _ => some (.trf r)
    | [] =>
      match c.rf.tmpDue.filter fun sid => free sid && c.tmpMay (c.tmpPc sid) sid with
      | [] => none
      | sid :: _ => some (.tmp (c.tmpPc sid) sid)

/-- R253: the banks that a PRE of a deadline command must close. -/
def Chan.dueBanks (c : Chan) (nsid : Nat) (ok : BitVec 4 → Bool) : List BankIx :=
  (c.dueUnits nsid).flatMap c.unitBanks ++ (c.dueTrfs ok).map (·.bank)

/-- R283: a die waits for its repair mode; another command to it would cancel the guard. -/
def Chan.guarded (c : Chan) (sid : SidIx) : Bool :=
  match c.repair with
  | none => false
  | some r => r.phase == 5 && r.loc.sidIx == sid

/-! ## The column command (R138, R139, R145) -/

/-- R235: the bank lets this candidate's column command go. -/
def Chan.repairLets (c : Chan) (k : Cand) : Bool :=
  match c.repair with
  | none => true
  | some r =>
    if r.phase = 0 || r.loc.bank != k.loc.bank then !c.dieRefreshes k.loc.bank
    else if r.phase = 1 then decide (k.at_ ≤ r.startAt)
    else match k.ent with
      | none => false
      | some e => e.isRepair

/-- R254: the data would overlap the burst of a due TMP. -/
def State.tmpBlocks (s : State) (n : Ch) (op : Zci) (l : Loc) : Bool :=
  let c := s.chan.get n
  let tm := s.tim n
  let d := dataFrom tm op s.now
  (c.rf.tmpDue.any fun sid => l.pcIx == c.tmpPc sid) && !(burstsApart d (s.now + tm.rl) && burstsApart d (s.now + 1 + tm.rl))

/-- R145, R176: another entry of the table, of an open class, targets the row. -/
def Chan.rowWanted (c : Chan) (l : Loc) (self : Option EntryIx) : Bool :=
  c.st.tt.any fun e => some e.idx != self && e.loc.sameRow l && c.isOpen e.cls

/-- R145: RDA and WRA. -/
def Chan.colOp (c : Chan) (write : Bool) (l : Loc) (self : Option EntryIx) : Zci :=
  let close := c.pageIdx l.bank == 0 && !c.rowWanted l self
  match write, close with
  | false, false => .rd
  | false, true => .rda
  | true, false => .wr
  | true, true => .wra

/-- R140: the cap of a joined pair is the same in both channels: the lower one binds (R39). -/
def State.capOf (s : State) (n : Ch) : Nat := ((s.map.reach n).map fun k => (s.chan.get k).st.cap.toNat).foldl min 64
def State.capAllows (s : State) (n : Ch) : Bool :=
  decide (64 ≤ s.capOf n) || decide ((s.chan.get n).st.colUsed < s.capOf n)

/-- R332 step 3: column commands go on for at most 1 us of a trip. -/
def Chan.tripCols (c : Chan) (now : Nat) : Bool := c.st.tripAt.all fun t => decide (now ≤ t + 1000)

/-- R138: col_allowed(). -/
def State.colAllowed (s : State) (n : Ch) (dueB : List BankIx) (k : Cand) : Bool :=
  let c := s.chan.get n
  let tm := s.tim n
  let op := c.colOp k.write k.loc (k.ent.map (·.idx))
  k.hit && s.timingOk n op k.loc && c.tripCols s.now
    && (k.write || k.ent.all c.respRoom)
    && k.write == c.st.wmode.get k.loc.pcIx
    && s.capAllows n
    && c.openThrough s.tb k.cls (if k.write then tm.wl + 2 else tm.rl + 2)
    && !c.offline k.loc.pcIx && !c.agedOlder k
    && !dueB.contains k.loc.bank && c.repairLets k && !c.guarded k.loc.sidIx && !s.tmpBlocks n op k.loc
    && (match k.ent with
        | some e => !e.usesLb || (c.lbFree s.now).isSome
        | none => true)

/-- R138: the pseudo-channels in the order of this CC. -/
def pcOrder (now : Nat) : List Pc := if now % 2 = 0 then [0, 1] else [1, 0]

/-- R138: pick_column(). -/
def State.pickColumn (s : State) (n : Ch) (dueB : List BankIx) : Option Cand :=
  let c := s.chan.get n
  let ok := (c.candsAt s.now).filter (s.colAllowed n dueB)
  match minOn (·.age) (ok.filter (·.aged)) with
  | some k => some k
  | none =>
    c.classOrder.findSome? fun cls => (pcOrder s.now).findSome? fun p =>
      minOn (·.age) (ok.filter fun k => k.cls.toNat == cls && k.loc.pcIx == p)

/-- R138, R139: the entries passed by a column command to entry `o`. -/
def Chan.pass (c : Chan) (o : Entry) : Chan :=
  c.updSt fun x => { x with tt := x.tt.map fun e =>
    if e.unissued && e.kind != .hint && decide (e.age < o.age) && e.cls == o.cls && e.loc.pc == o.loc.pc
        && e.isWrite == o.isWrite
    then { e with passed := BitVec.ofNat 7 (min 127 (e.passed.toNat + 1)) } else e }

/-- What a column command does to its bank. -/
def Chan.colBank (c : Chan) (now : Nat) (op : Zci) (b : BankIx) (ap : Nat) : Chan :=
  let c := c.updBank b fun x => { x with timerAt := now, expired := false, lastCol := some now }
  if op == .rda || op == .wra then c.autoClose b ap else c

/-- A column command goes out: bus, bank, counters, cap. -/
def State.doCol (s : State) (n : Ch) (op : Zci) (l : Loc) : State :=
  let now := s.now
  let ap := (s.record n op l now).ap
  (s.issue n op l 0 0).updBanks n fun c =>
    ((c.colBank now op l.bank ap).updCnt fun k => { k with col := k.col + 1 }).updSt fun x => { x with colUsed := x.colUsed + 1 }

/-- The entry served by a column command leaves WAIT or HIT; a fill takes its slot (R134). -/
def Chan.serve (c : Chan) (now : Nat) (e : Entry) : Chan :=
  if e.isWrite then c.updEntry e.idx fun x => { x with st := .colwr, colAt := now }
  else if e.usesLb then
    match c.lbFree now with
    | none => c
    | some i =>
      (c.updLb i fun _ => { line := some e.loc, lastUse := now }).updEntry e.idx fun x =>
        { x with st := .colrd, colAt := now, lb := BitVec.ofNat 4 i.val, slot := true }
  else c.updEntry e.idx fun x => { x with st := .colrd, colAt := now, slot := true }

/-- R138, R140, R168: the chosen column command is issued. A write-back serves no entry: none is passed, and it is charged
as a green command of its class (log entry 61, DESIGN CHOICE). -/
def State.issueCol (s : State) (n : Ch) (k : Cand) : State :=
  let now := s.now
  let op := (s.chan.get n).colOp k.write k.loc (k.ent.map (·.idx))
  let s := match k.ent, k.slot with
    | some e, _ => s.updChan n fun c => (c.pass e).serve now e
    | none, some i => s.writeBack n i
    | none, none => s
  let s := s.doCol n op k.loc
  s.updChan n fun c =>
    let c := if k.write then c.updSt fun x => { x with wcount := upd x.wcount k.loc.pcIx (· + 1) } else c
    c.charge k.cls k.yellow

/-- R220: the entries whose word is to be read again. -/
def Chan.retryEnts (c : Chan) : List Entry := c.st.tt.filter fun e => e.st == .colrd && e.retryDue && !c.offline e.loc.pcIx

/-- R140, R175, R220: the second column command of an entry may go: its timing, its gate and the cap allow it. -/
def State.retryAllowed (s : State) (n : Ch) (dueB : List BankIx) (e : Entry) : Bool :=
  let c := s.chan.get n
  let op := c.colOp false e.loc (some e.idx)
  (c.bank e.loc.bank).row == some e.loc.row && s.timingOk n op e.loc && s.capAllows n && c.tripCols s.now
    && c.openThrough s.tb e.cls ((s.tim n).rl + 2) && !dueB.contains e.loc.bank
    && !c.guarded e.loc.sidIx && !c.dieRefreshes e.loc.bank && !s.tmpBlocks n op e.loc

/-- R220: the second column command, at the first CC that the timing rules allow, ahead of other column commands. -/
def State.retryCol (s : State) (n : Ch) (dueB : List BankIx) : Option State :=
  let c := s.chan.get n
  match c.retryEnts.find? (s.retryAllowed n dueB) with
  | none => none
  | some e =>
    let now := s.now
    let op := c.colOp false e.loc (some e.idx)
    let s := (s.updChan n fun c => (c.pass e).updEntry e.idx fun x => { x with retryDue := false, colAt := now }).doCol n op e.loc
    some (s.updChan n fun c => c.charge e.cls e.yellow)

/-- R134, R137, R176: where an entry of an open class would read a line and every slot is dirty, one is written back. -/
def Chan.needSlot (c : Chan) (now : Nat) : Chan :=
  if (c.lbFree now).isNone && c.st.tt.any fun e => e.waits && e.usesLb && c.isOpen e.cls then c.lbEvict now else c

def State.stepColumn (s : State) (n : Ch) (dueB : List BankIx) : State :=
  match s.retryCol n dueB with
  | some s => s
  | none =>
    match s.pickColumn n dueB with
    | none => s
    | some k => s.issueCol n k

/-! ## The row command (R138) -/

/-- R175: the gate condition of an ACT. -/
def State.actOpen (s : State) (n : Ch) (cls : BitVec 4) : Bool := (s.chan.get n).openThrough s.tb cls (s.guardEff n)

/-- R138: what an ACT needs beside its timing. -/
def State.actAllowed (s : State) (n : Ch) (cls : BitVec 4) (l : Loc) : Bool :=
  let c := s.chan.get n
  !c.st.tripHold && s.actOpen n cls && !c.offline l.pcIx && !c.guarded l.sidIx
    && !c.dieRefreshes l.bank && !c.trfFirst l.bank

/-- R267: the pacing interval is over. -/
def Chan.paceMet (c : Chan) (now : Nat) (b : BankIx) : Bool :=
  c.cfg.pace == 0 || !(c.bank b).actSeen || decide ((c.bank b).lastAct + c.cfg.pace.toNat ≤ now)

/-- R270: an ACT delayed by pacing counts once. -/
def Chan.countPace (c : Chan) (b : BankIx) : Chan :=
  if (c.bank b).paced then c
  else (c.updBank b fun x => { x with paced := true }).updCnt fun k => { k with paceCnt := k.paceCnt + 1 }

/-- R262: an ACT, or the TRF that must come first, where its timing holds; a TRF that cannot go yet is owed before the
activation (R254). The Boolean says that a command has been issued. -/
def State.tryAct (s : State) (n : Ch) (l : Loc) : Bool × State :=
  let c := s.chan.get n
  match (c.trk l.bank).beforeAct l.row with
  | some row =>
    if s.timingOk n .trf (bankLoc l.bank row 0) then (true, s.doTrf n l.bank row false)
    else if c.rf.trf.any fun r => r.bank == l.bank && r.row == row then (false, s)
    else
      let r : TrfReq := { bank := l.bank, row := row, why := .beforeAct, at_ := s.now }
      (false, s.updChan n fun c => c.updRf fun x => { x with trf := x.trf ++ [r] })
  | none =>
    if !s.timingOk n .act l then (false, s)
    else if !c.paceMet s.now l.bank then (false, s.updBanks n (·.countPace l.bank))
    else (true, s.doAct n l)

/-- R235: the bank lets this candidate's row command go. -/
def Chan.repairLetsRow (c : Chan) (k : Cand) : Bool :=
  match c.repair with
  | none => true
  | some r =>
    if r.phase = 0 || r.loc.bank != k.loc.bank then !c.dieRefreshes k.loc.bank
    else match k.ent with
      | none => false
      | some e => e.isRepair

/-- R138: the row command of a candidate in WAIT, if row_allowed; `c0` is the channel as both picks of the CC find it. -/
def State.tryRow (s : State) (n : Ch) (c0 : Chan) (k : Cand) : Bool × State :=
  let c := s.chan.get n
  let b := k.loc.bank
  if k.hit || !c.isOpen k.cls || c0.agedOlder k || !c.repairLetsRow k then (false, s)
  else
    match (c.bank b).row with
    | some _ =>
      if (!c.pendingHit b || k.aged) && s.timingOk n .pre k.loc && !c.guarded k.loc.sidIx then (true, s.doPre n b .conflict)
      else (false, s)
    | none => if s.actAllowed n k.cls k.loc && c.drainTurn (s.actOpen n) k then s.tryAct n k.loc else (false, s)

/-- The first of a list whose row command goes; what the others leave in the state stays (a TRF owed, a delay by pacing). -/
def State.firstRow {α : Type} (f : State → α → Bool × State) (s : State) : List α → Bool × State
  | [] => (false, s)
  | k :: r =>
    let (done, s) := f s k
    if done then (true, s) else State.firstRow f s r

/-- Candidates sorted by age. -/
def insAge (k : Cand) : List Cand → List Cand
  | [] => [k]
  | x :: r => if k.age < x.age then k :: x :: r else x :: insAge k r
def byAge (l : List Cand) : List Cand := l.foldr insAge []

/-- R138: aged candidates first, then by class, pseudo-channel and age. -/
def Chan.rowOrder (c : Chan) (now : Nat) : List Cand :=
  let all := byAge ((c.candsAt now).filter fun k => !k.hit)
  all.filter (·.aged) ++
    c.classOrder.flatMap fun cls => (pcOrder now).flatMap fun p =>
      all.filter fun k => k.cls.toNat == cls && k.loc.pcIx == p

/-- R119, R252: the command that a refresh of a unit needs next, if its timing holds: a REFab follows a PREab of its
pseudo-channel and SID, a REFpb the PRE of an open bank. -/
def State.refStep (s : State) (n : Ch) (u : BankIx) : Option State :=
  let c := s.chan.get n
  let l := bankLoc u 0 0
  let last := (c.st.hist.filter fun p => samePcSid p.loc l && (p.op == .act || p.op == .preab || p.op == .refab)).getLast?
  if c.cfg.refAllBank then
    (if last.any (·.op == .preab) then (if s.timingOk n .refab l then some (s.doRef n u) else none)
     else if s.timingOk n .preab l then some (s.doPreab n u) else none)
  else if (c.bank u).row.isSome then (if s.timingOk n .pre l then some (s.doPre n u .other) else none)
  else if s.timingOk n .refpb l then some (s.doRef n u) else none

/-- R254: the command that the first deadline needs, if its timing holds. -/
def State.stepDue (s : State) (n : Ch) : Due → State
  | .ref u => (s.refStep n u).getD s
  | .trf r =>
    let c := s.chan.get n
    if (c.bank r.bank).row.isSome then (if s.timingOk n .pre (bankLoc r.bank 0 0) then s.doPre n r.bank .other else s)
    else if s.timingOk n .trf (bankLoc r.bank r.row 0) then s.doTrf n r.bank r.row (r.why == .trig) else s
  | .tmp p sid =>
    if s.timingOk n .tmp { pc := BitVec.ofNat 1 p.val, sid := BitVec.ofNat 2 sid.val, bg := 0, ba := 0, row := 0, col := 0 } then
      s.doTmp n p sid
    else s

/-- R141 step 3: an open bank of a closing pseudo-channel whose PRE may go, one that a repair holds too. -/
def State.closingBank (s : State) (n : Ch) : Option BankIx :=
  let c := s.chan.get n
  allBank.find? fun b => c.closing (bankPc b) && (c.bank b).row.isSome && !c.heldOff (bankPc b) && !c.dieRefreshes b
    && !c.guarded (bankSid b) && s.timingOk n .pre (bankLoc b 0 0)

/-- R175, R220: the row of a second read is opened again. -/
def State.retryRowOf (n : Ch) (s : State) (e : Entry) : Bool × State :=
  let c := s.chan.get n
  let b := e.loc.bank
  match (c.bank b).row with
  | some r =>
    if r != e.loc.row && c.isOpen e.cls && !c.guarded e.loc.sidIx && !c.dieRefreshes b && s.timingOk n .pre e.loc then
      (true, s.doPre n b .conflict)
    else (false, s)
  | none => if s.actAllowed n e.cls e.loc then s.tryAct n e.loc else (false, s)

def State.retryRow (s : State) (n : Ch) : Bool × State := s.firstRow (State.retryRowOf n) (s.chan.get n).retryEnts

/-- R235, R283: a row command of the repair sequencer. -/
def State.repairRow (s : State) (n : Ch) : Option State :=
  let c := s.chan.get n
  match c.repair with
  | none => none
  | some r =>
    let b := r.loc.bank
    let go := fun (s : State) (ph : Nat) => s.updChan n fun c =>
      { c with repair := c.repair.map fun r => { r with phase := ph, startAt := if ph = 7 then s.now else r.startAt } }
    let pre := s.timingOk n .pre r.loc
    let mrw := s.timingOk n .mrw r.loc
    let hitLeft := c.cands.any fun k => k.hit && k.loc.bank == b && decide (k.at_ ≤ r.startAt) && c.isOpen k.cls
    if c.heldOff r.loc.pcIx then none
    else if r.phase = 1 ∨ r.phase = 3 then
      (if (c.bank b).row.isSome && pre && !(r.phase == 1 && hitLeft) then some (s.doPre n b .other) else none)
    else if r.phase = 4 then (if mrw then some (go (s.doMrw n r.loc.sidIx 0x6D 0x5A) 5) else none)
    else if r.phase = 5 then (if mrw then some (go (s.doMrw n r.loc.sidIx 0x6C (if r.hard then 2 else 1)) 6) else none)
    else if r.phase = 6 then
      (if s.timingOk n .act r.loc && c.paceMet s.now b && !c.st.tripHold && !c.offline r.loc.pcIx then
        some (go ((s.issue n .act r.loc 0 0).updBanks n fun c => (c.updCnt fun k => { k with act := k.act + 1 }).updBank b fun x =>
          { x with lastAct := s.now, actSeen := true, paced := false }) 7) else none)
    else if r.phase = 8 then (if pre then some (go (s.doPre n b .other) 9) else none)
    else if r.phase = 9 then (if mrw then some (go (s.doMrw n r.loc.sidIx 0x6C 0) 10) else none)
    else if r.phase = 11 then (if (c.bank b).row.isSome && pre then some (s.doPre n b .other) else none)
    else none

/-- R144: the page timer of a bank has expired; it runs only while the bank has no pending hit. -/
def Chan.timerOut (c : Chan) (now : Nat) (b : BankIx) : Bool :=
  let x := c.bank b
  x.row.isSome && !c.pendingHit b && (x.expired || decide (x.timerAt + ladderNs (c.pageIdx b) ≤ now))

/-- R144: a bank whose page timer has expired. -/
def State.timerBank (s : State) (n : Ch) : Option BankIx :=
  let c := s.chan.get n
  allBank.find? fun b => c.timerOut s.now b && !c.barred b && !c.guarded (bankSid b) && s.timingOk n .pre (bankLoc b 0 0)

/-- R253: no entry of an open class targets the bank, and it is closed or its page timer has expired. -/
def Chan.idleBank (c : Chan) (now : Nat) (b : BankIx) : Bool :=
  ((c.bank b).row.isNone || c.timerOut now b) && !c.barred b && !c.guarded (bankSid b) &&
    !(c.cands.any fun k => k.loc.bank == b && c.isOpen k.cls) && !(c.st.tt.any fun e => e.kind == .hint && e.loc.bank == b && c.isOpen e.cls)

/-- R253: the idle unit of largest debt is refreshed early. -/
def State.pullIn (s : State) (n : Ch) : Option State :=
  let c := s.chan.get n
  let us := (c.units s.map.nsid).filter fun u =>
    let d := c.rf.debt.get u
    decide (-8 < d) && (decide (1 ≤ d) || !c.offline (bankPc u)) && (c.unitBanks u).all (c.idleBank s.now)
  (minOn (fun u => (40 - c.rf.debt.get u).toNat) us).bind (s.refStep n)

/-- R263: a sweep entry of an idle bank. -/
def State.sweepIn (s : State) (n : Ch) : Option State :=
  let c := s.chan.get n
  allBank.findSome? fun b =>
    match (c.trk b).ents.find? (·.sweep) with
    | none => none
    | some e =>
      if c.idleBank s.now b && (c.bank b).row.isNone && !c.offline (bankPc b) && s.timingOk n .trf (bankLoc b e.row 0) then some (s.doTrf n b e.row false)
      else none

/-- R143: a HINT opens its row; its entry is freed at the ACT. -/
def State.hintOf (n : Ch) (s : State) (e : Entry) : Bool × State :=
  let c := s.chan.get n
  if e.kind == .hint && (c.bank e.loc.bank).row.isNone && c.repairLetsRow (c.entCand e) && s.actAllowed n e.cls e.loc then
    let (done, s) := s.tryAct n e.loc
    (done, if done && ((s.chan.get n).bank e.loc.bank).row.isSome then s.updChan n (·.freeEntry s.now e.idx) else s)
  else (false, s)
def State.hintRow (s : State) (n : Ch) : Bool × State := s.firstRow (State.hintOf n) (s.chan.get n).st.tt

/-- R154, R117: the oldest mode-register access of firmware, where its die and the timing rules allow it. -/
def State.mrwRow (s : State) (n : Ch) : Option State :=
  let c := s.chan.get n
  match c.st.mrq with
  | [] => none
  | q :: r => if s.mrOk n q then some ((s.updChan n fun c => c.updSt fun x => { x with mrq := r }).doMr n q) else none

/-- R138: pick_row() of a CC without a deadline command, and its command; `c0` is the channel as both picks of the CC find it.
Where the pseudocode names no place, the PREs of a closing pseudo-channel and the row commands of a repair come before the aged
entries, and the mode-register accesses of firmware after the pull-ins and before HINTs (log entry 15, DESIGN CHOICE). -/
def State.pickRow (s : State) (n : Ch) (c0 : Chan) : State :=
  let (done, s) := s.retryRow n
  if done then s
  else
    match s.closingBank n with
    | some b => s.doPre n b .other
    | none =>
      match s.repairRow n with
      | some s => s
      | none =>
        let (done, s) := s.firstRow (fun s k => s.tryRow n c0 k) (c0.rowOrder s.now)
        if done then s
        else
          match s.timerBank n with
          | some b => s.doPre n b .timer
          | none => (((s.pullIn n).orElse fun _ => s.sweepIn n).orElse fun _ => s.mrwRow n).getD (s.hintRow n).2

/-- R138, R253, R254: a deadline command comes first; one to a die in the guard of a repair (R283) waits for the second MRW,
and withholds every other row command. -/
def State.stepRow (s : State) (n : Ch) (c0 : Chan) : State :=
  let c := s.chan.get n
  match c.firstDue s.map.nsid (s.actOpen n) fun sid => !c.guarded sid with
  | some d => s.stepDue n d
  | none => if (c.firstDue s.map.nsid (s.actOpen n) fun _ => true).isSome then (s.repairRow n).getD s else s.pickRow n c0

/-! ## What feeds the table each CC (R235, R302) -/

/-- Line number `j` of a pseudo-channel: column, bank, row, SID. -/
def sweepLoc (nrow : Nat) (p : Pc) (j : Nat) : Loc :=
  { pc := BitVec.ofNat 1 p.val, col := BitVec.ofNat 4 j, bg := BitVec.ofNat 2 (j / 16), ba := BitVec.ofNat 2 (j / 64),
    row := BitVec.ofNat 14 (j / 256 % nrow), sid := BitVec.ofNat 2 (j / 256 / nrow) }

/-- R302: the next line of a requalification sweep of channel `k`, which engine n serves, is read in the maintenance class:
first those whose write-back found no room. Sweeps rest while Priri restarts (R55). -/
def State.feedRequal (n : Ch) (s : State) (k : Ch) (p : Pc) : State :=
  let g := (s.chan.get k).pc.get p
  let c := s.chan.get n
  if s.fw.st == .restarting || !c.canTake s.now c.cfg.maintCls then s
  else
    match g.requal, g.requalWait with
    | none, _ => s
    | some lane, l :: r =>
      (s.updChan k fun c => c.updPc p fun g => { g with requalWait := r }).addMaint n .mrd l (.requalRd (k != n) p lane) 0 false
    | some lane, [] =>
      if g.requalNext < s.map.nrow * s.map.nsid * 256 then
        let s := s.updChan k fun c => c.updPc p fun g => { g with requalNext := g.requalNext + 1 }
        s.addMaint n .mrd (sweepLoc s.map.nrow p g.requalNext) (.requalRd (k != n) p lane) 0 false
      else s

def State.feedRequals (s : State) (n : Ch) : State :=
  (s.map.reach n).foldl (fun s k => State.feedRequal n (State.feedRequal n s k 0) k 1) s

/-- R122, R232, R233: the access of a remap entry's fill or release that waits for room enters the table. The entry of a fill is
FILLING from then on, so that every younger request to the line waits for the fill (R231). In a transition of the pair and in a
channel reset it waits; a transition may have given the line another entry (R244). -/
def State.feedRemap (s : State) (n : Ch) : State :=
  match s.mgmt.fw.remapJobs.find? fun j => j.waits && s.map.server j.n == n with
  | none => s
  | some j =>
    let c := s.chan.get n
    if !c.canTake s.now c.cfg.maintCls || s.map.trans.getLsbD (pairOf n).val || c.inReset then s
    else
      let i := if j.release then (c.remapOf j.loc).getD j.i else j.i
      let r := c.remap.get i
      let s := s.updFw fun f =>
        { f with remapJobs := f.remapJobs.map fun x => if x = j then { x with n := n, i := i, waits := false } else x }
      if j.release then s.addMaint n .mwr j.loc (.remapRelease i) r.data (r.st == .poisoned)
      else
        let pair := s.map.isJoined n
        let s := s.updChan n fun c =>
          { c with remap := upd c.remap j.i fun _ => { st := .filling, loc := j.loc, pair := pair, data := 0 } }
        s.addMaint n .mrd j.loc (.remapFill j.i) 0 false

/-- Line number `j` of a channel that an initialisation writes. -/
def initLoc (nrow nsid j : Nat) : Loc := sweepLoc nrow (Fin.ofNat 2 (j / (nrow * nsid * 256))) (j % (nrow * nsid * 256))

/-- R50, R122: the next codeword of an initialisation enters the table, as an MWR of zeros in the maintenance class. -/
def State.feedInit (s : State) (n : Ch) : State :=
  let c := s.chan.get n
  match c.init with
  | none => s
  | some j =>
    if decide (s.map.nrow * s.map.nsid * 512 ≤ j) || !c.canTake s.now c.cfg.maintCls then s
    else (s.updChan n fun c => { c with init := some (j + 1) }).addMaint n .mwr (initLoc s.map.nrow s.map.nsid j) .init 0 false

/-- R235: the next access of a repair copy enters the table. -/
def State.feedCopy (s : State) (n : Ch) (r : Repair) : State :=
  let c := s.chan.get n
  let i : Fin 16 := Fin.ofNat 16 r.nextRd
  let l := { r.loc with col := BitVec.ofNat 4 i.val }
  if r.lines ≤ r.nextRd ∨ c.canTake s.now c.cfg.maintCls = false then s
  else
    let s := s.updChan n fun c => { c with repair := c.repair.map fun r => { r with nextRd := r.nextRd + 1 } }
    if r.phase = 2 then s.addMaint n .mrd l (.repairRd i) 0 false
    else
      let d := r.buf.getD i.val (0, false)
      s.addMaint n .mwr l (.repairWr i) d.1 d.2

/-- R237, R239, R381: firmware ends a repair: a hard one is recorded, and the command answered, with FAULT where the sequencer
failed. While Priri restarts this waits (R55). -/
def State.repairReport (s : State) (n : Ch) (hard failed : Bool) (l : Loc) (by_ : Option (Mb × BitVec 2)) : State :=
  if failed then s.answerTo by_ stFAULT 0
  else if hard then
    let (lost, s) := s.addRecord (recWord0 recHPPR n l) 0
    s.answerTo by_ stOK (if lost then 1 else 0)
  else s.answerTo by_ stOK 0

/-- R235 step 5, R237 step 4, R283: the bank is released and the resource is spent; whether a sequence that failed has spent it is
free (log entry 4, DESIGN CHOICE). -/
def State.repairEnd (s : State) (n : Ch) (r : Repair) : State :=
  let (b, s) := if r.failed then s.drawBits 1 else (1, s)
  let s := (s.map.reach n).foldl (fun s k => s.updChan k fun c =>
    { c with repair := if k = n then none else c.repair,
             dies := if b = 1 then upd c.dies r.loc.sidIx fun d => d.spend r.hard r.loc else c.dies }) s
  -- R304: a command-lane flow that waited for the repair asks for its pause
  let s := ((s.map.reach n).filter fun k => (s.chan.get k).cmdFlow && s.fw.st != .restarting).foldl (fun s k =>
    s.askUrgent k none) s
  let told := s.fw.st != .restarting
  let s := s.stir.updChan n fun c => { c with lastRepair := some (r.hard, r.loc, told), lastFailed := r.failed }
  if told then s.repairReport n r.hard r.failed r.loc r.by_ else s

/-- R235, R237: the steps of the repair sequencer that take no command; and its ACT delayed by pacing (R267, R270). -/
def State.repairAdvance (s : State) (n : Ch) : State :=
  let c := s.chan.get n
  match c.repair with
  | none => s
  | some r =>
    let set := fun (f : Repair → Repair) => s.updChan n fun c => { c with repair := c.repair.map f }
    let closed := (c.bank r.loc.bank).row.isNone
    let copied := { r with phase := 10, lines := r.done, nextRd := 0, done := 0 }
    if r.phase = 0 then
      (if r.failed then s.repairEnd n r
       else if c.rf.debt.get (c.unitOf r.loc.bank) ≤ 4 && !c.offline r.loc.pcIx then
        set fun r => { r with phase := 1, startAt := s.now } else s)
    else if r.phase = 1 then
      (if closed && !(c.st.tt.any fun e => e.loc.bank == r.loc.bank && (e.st == .colrd || e.st == .colwr) && !e.isRepair) then
        (if r.failed then s.repairEnd n r else set fun r => { r with phase := 2, nextRd := 0, done := 0 }) else s)
    else if r.phase = 2 then
      (if r.failed then (if r.done == r.nextRd then set fun _ => copied else s)
       else if 16 ≤ r.done then set fun r => { r with phase := 3 } else s.feedCopy n r)
    else if r.phase = 3 then
      (if r.failed then set fun _ => copied
       else if closed && !c.offline r.loc.pcIx && !c.trfFirst r.loc.bank then set fun r => { r with phase := 4 } else s)
    else if r.phase = 6 then
      (if s.timingOk n .act r.loc && !c.paceMet s.now r.loc.bank then s.updBanks n (·.countPace r.loc.bank) else s)
    else if r.phase = 10 then
      (if r.lines ≤ r.done then set fun r => { r with phase := 11 } else s.feedCopy n r)
    else if r.phase = 11 then (if closed then s.repairEnd n r else s)
    else s

/-! ## One CC -/

/-- The engine issues commands: its dies are up, its engine is not in recovery, reset or idle in a pair. -/
def State.engineRuns (s : State) (n : Ch) : Bool :=
  let c := s.chan.get n
  !s.map.isFollower n && c.st.recov == .none && c.st.pwr == .active && !c.inReset && (s.map.mapped.getLsbD n.val || c.init.isSome)
    && s.quadOn n

/-- R143, R153: HINTs are freed where hint_en is 0. -/
def Chan.sweepHints (c : Chan) (now : Nat) : Chan :=
  if (c.cfgAt now).hintEn then c else c.freeAll now (·.kind == .hint)

/-- R259: one refresh of a Pupa burst: of the units of its pseudo-channels the one of largest debt. -/
def State.burstRow (s : State) (n : Ch) : State :=
  let c := s.chan.get n
  let us := (c.units s.map.nsid).filter fun u =>
    c.rf.burst.get (bankPc u) && decide (-8 < c.rf.debt.get u) && (s.refStep n u).isSome
  ((minOn (fun u => (40 - c.rf.debt.get u).toNat) us).bind (s.refStep n)).getD s

/-- R467: what the scheduler watchdog sees of a channel now. -/
def State.watch (s : State) (n : Ch) : State := s.updChan n fun c => c.watch s.now s.map.nsid (s.actOpen n)
def State.watchAll (s : State) : State := s.mapChan fun n c => c.watch s.now s.map.nsid (s.actOpen n)

def execCrossbarRequestGrant (g : ReqGrant) (s : State) : Host.Outcome State Fault Refusal :=
  .next ((s.crossbarRequestGrant g.n g.u).watch g.n)

def execGateCycleStart (n : Ch) (s : State) : Host.Outcome State Fault Refusal := .next ((s.gateCycleStart n).watch n)

def execGateEntryEnd (n : Ch) (s : State) : Host.Outcome State Fault Refusal := .next ((s.gateEntryEnd n).watch n)

/-- R138: the CC `cc` of the channel, once for each CC; in Pupa a CC of its refresh burst (R259). -/
def State.schedulerCc (s : State) (n : Ch) (cc : Nat) : State :=
  let burst := (s.chan.get n).inBurst
  if cc < s.now || decide (cc < ((s.chan.get n).st.lastCc.map (· + 1)).getD 0) || !(s.engineRuns n || burst) then s
  else
    let s := s.advance cc
    if burst then
      let s := s.updChan n fun c => c.updSt fun x => { x with lastCc := some cc }
      if (s.chan.get n).rowFree cc then s.burstRow n else s
    else
    let s := s.updChan n fun c =>
      ((((({ c with gate := c.gate.settle cc }.updSt fun x => { x with lastCc := some cc }).sweepHints cc).clearDeficits.rehit).updMode cc 0).updMode cc 1)
    let s := (((s.feedInit n).feedRemap n).feedRequals n).repairAdvance n
    let s := (s.updChan n fun c => c.needSlot cc).watch n
    let c := s.chan.get n
    let s := s.stepColumn n (c.dueBanks s.map.nsid (s.actOpen n))
    if c.rowFree cc then s.stepRow n c else s

def execSchedulerCc (n : Ch) (cc : Nat) (s : State) : Host.Outcome State Fault Refusal := .next (s.schedulerCc n cc)

/-- R132: the oldest write of a pseudo-channel in read mode has waited longer than wr_age allows. -/
def State.writeAgeExpiry (s : State) (n : Ch) (p : Pc) : State :=
  let c := s.chan.get n
  match minOn (·.at_) (c.writeQueue p) with
  | none => s
  | some k =>
    if c.st.wmode.get p || c.writesStuck p then s
    else
      let s := s.advance (k.at_ + c.wrAgeNs s.now + 1)
      if c.st.modeAt.get p == some s.now then s else s.updChan n fun c => c.setMode s.now p true

def execWriteAgeExpiry (n : Ch) (pc : Pc) (s : State) : Host.Outcome State Fault Refusal := .next (s.writeAgeExpiry n pc)

end Sys2Proof.Machine
end

