-- ==== Sys2Proof/Machine/Thermal.lean ====
section
/-! DEFINITION. Core dies in self-refresh, temperature readings, critical cap, trip, the thermal model and the floor
(chapter 10, R329 to R337; R260, R265). -/

namespace Sys2Proof.Machine

/-! ## The dies outside the scheduler (R199, R260, R265; log entry 16, DEDUCED) -/

/-- R265: the trackers are empty, in their epochs. -/
def Chan.clearTrackers (c : Chan) : Chan :=
  c.updRf fun r => { r with trk := r.trk.map fun t => { t with s := 0, ents := [], drain := false, drainTrf := 0 }, trf := [] }

/-- R265, R270: every valid and sweep entry receives its TRF, and every TRF that a trigger owes is issued; those of sweep entries
and the triggered ones are counted. -/
def Chan.drainTrackers (c : Chan) : Chan :=
  (c.updCnt fun k =>
    { k with trfSweep := k.trfSweep + BitVec.ofNat 32 c.sweepOwed,
             trfTrig := k.trfTrig + BitVec.ofNat 32 (c.rf.trf.countP (·.why == .trig)) }).clearTrackers

/-- R270: of `k` refreshes issued in a row for a unit at debt `d`, those at their deadline. -/
def lateOf (d : Int) (k : Nat) : Nat := min k (d - 7).toNat

/-- Every owed refresh is issued (R313 E3, R324, R332). -/
def Chan.payOwed (c : Chan) : Chan :=
  let n := (c.rf.owed.toList.map List.length).sum
  let late := (allBank.map fun b => lateOf (c.rf.debt.get b) (c.rf.owed.get b).length).sum
  (c.updCnt fun k => { k with ref := k.ref + BitVec.ofNat 32 n, refDl := k.refDl + BitVec.ofNat 32 late }).updRf fun r =>
    { r with debt := r.debt.map (min 0), owed := Vector.replicate 128 [] }

/-- The units of a channel (R252) that are in use, of some pseudo-channels. -/
def Chan.unitsOn (c : Chan) (nsid : Nat) (on : Pc → Bool) : List BankIx :=
  allBank.filter fun b => decide ((bankSid b).val < nsid) && on (bankPc b) && (!c.cfg.refAllBank || b.val % 16 == 0)

/-- R259, R313 E3: every unit in use (of some pseudo-channels) is pulled in to -8. -/
def Chan.pullAll (c : Chan) (nsid : Nat) (on : Pc → Bool) : Chan :=
  let us := c.unitsOn nsid on
  let k := fun (u : BankIx) => (c.rf.debt.get u + 8).toNat
  let late := (us.map fun u => lateOf (c.rf.debt.get u) (k u)).sum
  (c.updCnt fun x => { x with ref := x.ref + BitVec.ofNat 32 (us.map k).sum, refDl := x.refDl + BitVec.ofNat 32 late }).updRf fun r =>
    { r with debt := Vector.ofFn fun b => if us.contains b then -8 else r.debt.get b,
             owed := Vector.ofFn fun b => if us.contains b then [] else r.owed.get b }

/-- R117, R119, R252: refreshes outside the scheduler, one of each unit that still needs one in turn; PREab before each REFab. -/
def State.refSoon (s : State) (n : Ch) (us : List BankIx) (need : BankIx → Nat) : State :=
  let most := (us.map need).foldl max 0
  let cmds := (List.range most).flatMap fun k => us.filter fun u => decide (k < need u)
  let all := (s.chan.get n).cfg.refAllBank
  cmds.foldl (fun s u =>
    let l := bankLoc u 0 0
    if all then (s.issueSoon n .preab l 0 0).issueSoon n .refab l 0 0 else s.issueSoon n .refpb l 0 0) s

/-- An open bank of the channel is precharged before refreshes outside the scheduler. -/
def State.closeFirst (s : State) (n : Ch) : State :=
  if (s.chan.get n).st.banks.toList.any (·.row.isSome) then s.preabAll n else s

/-- R313 E3, R324, R332: the refreshes that are owed go out, and are paid. -/
def State.payOwed (s : State) (n : Ch) : State :=
  let c := s.chan.get n
  if c.rf.owed.toList.all List.isEmpty then s.updChan n Chan.payOwed
  else ((s.closeFirst n).refSoon n (c.unitsOn 4 fun _ => true) fun u => (c.rf.owed.get u).length).updChan n Chan.payOwed

/-- R259, R313 E3: the refreshes that pull units in go out, and are paid. -/
def State.pullAll (s : State) (n : Ch) (on : Pc → Bool) : State :=
  let c := s.chan.get n
  let nsid := s.map.nsid
  ((s.closeFirst n).refSoon n (c.unitsOn nsid on) fun u => (c.rf.debt.get u + 8).toNat).updChan n fun c => c.pullAll nsid on

/-- The rows of a bank that a drain outside the scheduler treats: those that a trigger owes a TRF, then those of valid and sweep
entries. -/
def Chan.drainBank (c : Chan) (b : BankIx) : List (BankIx × BitVec 14) :=
  ((c.rf.trf.filter fun r => r.why == .trig && r.bank == b).map fun r => (b, r.row)) ++
    ((c.trk b).ents.filter fun e => e.sweep || (c.trk b).valid e).map fun e => (b, e.row)

/-- R265: the rows of a drain, one of each bank in turn, so that tRRD and tFAW alone pace it. -/
def Chan.drainRows (c : Chan) : List (BankIx × BitVec 14) :=
  let per := allBank.map c.drainBank
  (List.range ((per.map List.length).foldl max 0)).flatMap fun k => per.filterMap (·[k]?)

/-- A place in commands that address the whole channel. -/
def chanLoc : Loc := ⟨0, 0, 0, 0, 0, 0⟩

/-- R259: the dies are up, and no refresh burst is in progress; those that one has woken stay up. -/
def Chan.endBurst (c : Chan) : Chan :=
  (c.updSt fun x => { x with pwr := .active }).updRf fun r => { r with burst := Vector.replicate 2 false }

/-- R259, R284: PDX, in both channels of a joined pair, but for dies that a refresh burst has woken already; the burst ends. -/
def State.exitPd (s : State) (n : Ch) : State :=
  let e := s.map.server n
  let s := if (s.chan.get e).inBurst then s else s.issueSoon e .pdx chanLoc 0 0
  (s.map.reach e).foldl (fun s k => s.updChan k Chan.endBurst) s

/-- Dies in power-down leave it. -/
def State.leavePd (s : State) (n : Ch) : State :=
  if (s.chan.get (s.map.server n)).st.pwr == .powerDown then s.exitPd n else s

/-- PREab, MRW 0x68 where the spec names a rate, and SRE, in both channels of a joined pair in the same CK (R37). Dies in
power-down take PDX first (R284). -/
def State.enterSr (s : State) (n : Ch) (rate : Option Nat) : State :=
  let e := s.map.server n
  let pwr := (s.chan.get e).st.pwr
  if pwr == .selfRefresh then s
  else
    let s := (s.leavePd n).preabAll e
    let s := match rate with
      | some r => s.mrwAll e 0x68 ((mulCode r).setWidth 8)
      | none => s
    let s := s.issueSoon e .sre chanLoc 0 0
    (s.map.reach e).foldl (fun s k => s.updChan k fun c => c.updSt fun x => { x with pwr := .selfRefresh }) s

/-- R260: SRX: every debt is 0, and the multiplier is 4 until a TMP of each SID has been decoded; no tick counts before
tXS has passed. -/
def Refresh.restart (r : Refresh) (sids : List SidIx) (tb : Nat) : Refresh :=
  { r with waitTmp := Vector.ofFn fun i => sids.contains i, debt := Vector.replicate 128 0, owed := Vector.replicate 128 [], mTemp := Vector.replicate 4 4,
           mult := Vector.replicate 128 4, tickFrom := Vector.replicate 128 tb, direct := Vector.replicate 4 true,
           tmpDue := sids, tmpSent := [] }

def State.exitSr (s : State) (n : Ch) : State :=
  let e := s.map.server n
  if (s.chan.get e).st.pwr != .selfRefresh then s
  else
    let sids := (List.finRange 4).filter fun i => decide (i.val < s.map.nsid)
    let at_ := s.soonAt e .srx chanLoc
    let s := s.issueAt e .srx chanLoc 0 0 at_
    let tb := s.tb + (at_ - s.now) + (s.tim e).tXS
    (s.map.reach e).foldl (fun s k => s.updChan k fun c =>
      (c.updSt fun x => { x with pwr := .active }).updRf fun r => r.restart (if k = e then sids else []) tb) s

/-- R324, R326, R332: the dies of a channel leave self-refresh for a moment, not before `t`: SRX, some commands, SRE; nothing where
they are not in it. -/
def State.srVisit (s : State) (n : Ch) (t : Nat) (work : State → State) : State :=
  if (s.chan.get n).st.pwr != .selfRefresh then s
  else (work (s.issueAt n .srx chanLoc 0 0 (max t (s.soonAt n .srx chanLoc)))).issueSoon n .sre chanLoc 0 0

/-- R265, R284: the TRFs of a drain go out; dies in power-down or in self-refresh leave it for them (log entry 73, DEDUCED). -/
def State.drainTrackers (s : State) (n : Ch) : State :=
  let rows := (s.chan.get n).drainRows
  let trfs := fun (s : State) => rows.foldl (fun s x => s.issueSoon n .trf (bankLoc x.1 x.2 0) 0 0) s
  let s :=
    if rows.isEmpty then s
    else
      match (s.chan.get n).st.pwr with
      | .active => trfs (s.closeFirst n)
      | .powerDown => trfs (s.exitPd n)
      | .selfRefresh => s.srVisit n s.now trfs
  s.updChan n Chan.drainTrackers

/-- A TMP of every SID in use. -/
def State.srTmps (n : Ch) (nsid : Nat) (s : State) : State :=
  ((List.finRange 4).filter fun i => decide (i.val < nsid)).foldl (fun s i => s.issueSoon n .tmp (dieLoc i) 0 0) s

/-- R324, R332: the debts start at 0 after SRX, each unit ticks at most 3 times in the window, and every refresh owed by then is
issued. How often each unit ticks is free (log entry 4, DESIGN CHOICE). -/
def State.visitRefresh (n : Ch) (nsid : Nat) (s : State) : State :=
  let (b, s) := s.drawBits 256
  let us := (s.chan.get n).unitsOn nsid fun _ => true
  let k := fun (u : BankIx) => (b.extractLsb' (2 * u.val) 2).toNat
  let sum := (us.map k).sum
  let s := if sum = 0 then s else (s.closeFirst n).refSoon n us k
  s.updChan n fun c => (c.updCnt fun x => { x with ref := x.ref + BitVec.ofNat 32 sum }).updRf fun r =>
    { r with debt := Vector.replicate 128 0, owed := Vector.replicate 128 [] }

/-- R260: a TMP of every SID in use goes out before the dies leave the engine again; its answers come with TMP_READING. -/
def State.tmpsSoon (s : State) (n : Ch) : State :=
  let sids := (List.finRange 4).filter fun i => decide (i.val < s.map.nsid)
  (s.map.reach n).foldl (fun s k => s.updChan k fun c => c.updRf fun r => { r with tmpDue := [], tmpSent := sids })
    (State.srTmps n s.map.nsid s)

/-- The mapped channels whose engine still drives its dies: a hole does so too where its channel is disabled, not lost (R111, R384,
R472). -/
def State.liveCh (s : State) : List Ch := allCh.filter fun n =>
  s.map.mapped.getLsbD n.val && !(s.map.hole.getLsbD n.val && s.map.lost.getLsbD (s.map.server n).val)

/-- SIDs in use; during a warm boot those of the map it left (R434). -/
def State.nsidNow (s : State) : Nat := if s.inWarm then s.pwr.keptSid else s.map.nsid

/-- The channels whose dies a trip check reads (R332, R434). -/
def State.checkCh (s : State) : List Ch := if s.inWarm then allCh.filter fun n => s.pwr.keptCh.getLsbD n.val else s.liveCh

/-! ## Readings (R329 to R331) -/

/-- T of the table of cause codes. -/
def tempDet (t : BitVec 8) (core : Option SidIx) : BitVec 24 :=
  t ++ (0 : BitVec 13) ++ bit1 core.isSome ++ BitVec.ofNat 2 (match core with
    | some i => i.val
    | none => 0)

/-- The readings of a channel: its base-die sensor and the latest TMP of every SID in use. -/
def Chan.readings (c : Chan) (nsid : Nat) : List Int :=
  c.st.baseTemp.toInt :: ((List.finRange 4).filter fun i => decide (i.val < nsid)).map fun i => (c.rf.temp.get i).toInt

def maxInt (l : List Int) : Int := l.foldl max (-128)

/-- R329: T_hot. -/
def State.tHotNow (s : State) : Int := maxInt (allCh.map fun n => maxInt ((s.chan.get n).readings s.nsidNow))

/-- GLB_THERM_STATUS.zone. -/
def State.zoneNow (s : State) : BitVec 3 :=
  let t := s.mgmt.therm
  if s.pwr.trip then 4
  else if allCh.any fun n => (s.chan.get n).st.crit then 3
  else if t.throttle.toInt ≤ s.tHotNow then 2
  else if t.warn.toInt ≤ s.tHotNow then 1
  else 0

/-- R329, EV345: T_hot and the zone follow the readings. -/
def State.updZone (s : State) : State :=
  let z := s.zoneNow
  let old := s.mgmt.therm.zone
  let t := BitVec.ofInt 8 s.tHotNow
  let s := s.updTherm fun x => { x with tHot := t, zone := z }
  if z = old then s else s.raiseG 345 (z.setWidth 24) s.mgmt.therm.status

/-! ## Trip (R332, R333) -/

/-- R332 steps 1 and 2; a channel in a recovery ends it before step 2 (R463). -/
def State.tripBegin (s : State) (t : BitVec 8) : State :=
  let now := s.now
  let s := s.updPwr fun p => { p with trip := true, tripChrys := false, tripRun := 0, lastCheck := now, tripPend := false }
  let rec_ := fun n => (s.chan.get (s.map.server n)).st.recov != .none
  let s := s.mapChan fun n c => if rec_ n then c else c.updSt fun x => { x with tripHold := true, tripAt := some now, readyAt := none }
  (s.raiseG 347 1 (t.setWidth 32)).updZone

/-- R463: the recovery of a channel has ended, and a trip that started during it goes on to step 2. -/
def State.joinTrip (s : State) (n : Ch) : State :=
  let now := s.now
  if !s.pwr.trip then s
  else (s.map.reach n).foldl (fun s k => s.updChan k fun c =>
    if c.st.tripHold then c else c.updSt fun x => { x with tripHold := true, tripAt := some now }) s

/-- R314, R332: a reading reaches 110 degrees outside Chrysalis. -/
def State.tripReading (s : State) (t : BitVec 8) : State :=
  if s.pwr.trip then s
  else
    match s.pwr.state with
    | .imago | .pupa | .waking => s.tripBegin t
    | .toPupa | .toChrysalis =>
      if s.pwr.ph == .defer then s.tripBegin t else s.updPwr fun p => { p with tripPend := true }
    | .chrysalis | .chrysMgmt => s

/-- R329, R331, R332: a reading of a channel. -/
def State.reading (s : State) (n : Ch) (t : BitVec 8) (core : Option SidIx) : State :=
  let c := s.chan.get n
  let all := c.readings s.nsidNow
  let warn := s.mgmt.therm.warn.toInt
  let up := decide (warn ≤ maxInt all)
  let s := if up && !c.st.warnUp then s.raise (evTherm n) 1 (tempDet t core) 0 else s
  let cool := all.all fun x => decide (x ≤ 102)
  let now := s.now
  let s := s.updChan n fun c => c.updSt fun x =>
    { x with warnUp := up, critCoolAt := if !cool then none else some (x.critCoolAt.getD now) }
  let s :=
    if decide (105 ≤ t.toInt) && !c.st.crit then
      let capNow := min c.st.capBase.toNat s.mgmt.therm.critCap.toNat
      (s.updChan n fun c => c.updSt fun x => { x with crit := true }).raise (evTherm n) 2 (tempDet t core) (w32 capNow)
    else s
  let s := s.updZone
  if decide (110 ≤ t.toInt) then s.tripReading t else s

/-- R329: the base-die sensor of a channel is read, every 10 us. -/
def State.baseDieSensorReading (s : State) (n : Ch) (t : BitVec 8) : State :=
  if !s.quadOn n then s
  else (s.updChan n fun c => c.updSt fun x => { x with baseTemp := t }).reading n t none

def execBaseDieSensorReading (n : Ch) (t : BitVec 8) (s : State) : Host.Outcome State Fault Refusal :=
  .next (s.baseDieSensorReading n t)

/-- R331, R415: every reading has stayed at or below 102 degrees for 1 ms; a quad that is off raises nothing. -/
def State.criticalCapEnd (s : State) (n : Ch) : State :=
  let c := s.chan.get n
  if !s.quadOn n then s else
  match c.st.crit, c.st.critCoolAt with
  | true, some t =>
    let s := s.advance (t + 1000000)
    let s := s.updChan n fun c => c.updSt fun x => { x with crit := false }
    (s.raise (evTherm n) 3 (tempDet c.st.baseTemp none) 0).updZone
  | _, _ => s

def execCriticalCapEnd (n : Ch) (s : State) : Host.Outcome State Fault Refusal := .next (s.criticalCapEnd n)

/-- R332 step 3: after at most 1 us of column commands: owed refreshes, PREab, MRW 0x68 with 4x, SRE; dies in power-down take PDX
before (R284). A recovery in progress ends first (R463), and so does a repair sequence, during which its die takes no command (R237,
R283; log entry 73, DEDUCED). -/
def State.tripColumnWindowExpiry (s : State) (n : Ch) : State :=
  let c := s.chan.get n
  let e := s.map.server n
  match c.st.tripAt with
  | none => s
  | some t =>
    if c.st.pwr == .selfRefresh || (s.chan.get e).st.recov != .none || (s.chan.get e).repairRuns then s
    else
      let s := (((s.advance (t + 1000)).leavePd e).payOwed e).enterSr e (some 4)
      (s.map.reach e).foldl (fun s k => s.updChan k fun c => c.updSt fun x => { x with tripAt := none }) s

def execTripColumnWindowExpiry (n : Ch) (s : State) : Host.Outcome State Fault Refusal :=
  .next (s.tripColumnWindowExpiry n)

/-- The reading that a check or visit got from a SID of a channel; none where it failed (R280). -/
def sampleOf (tmps : List TmpSample) (n : Ch) (sid : SidIx) : Option (BitVec 8) :=
  match tmps.find? fun x => x.n == n && x.sid == sid with
  | none => none
  | some x =>
    match burstValue x.burst with
    | none => none
    | some v => if v = 0x80 then none else some v

/-- R313 E5: PDE, in both channels of a joined pair. -/
def State.enterPd (s : State) (n : Ch) : State :=
  let e := s.map.server n
  if (s.chan.get e).st.pwr != .active then s
  else
    let s := s.issueSoon e .pde chanLoc 0 0
    (s.map.reach e).foldl (fun s k => s.updChan k fun c => c.updSt fun x => { x with pwr := .powerDown }) s

/-- R332: the end of a trip: SRX, refresh restarts, requests are served; in Pupa a TMP of each SID is read (R260), every unit is
pulled in (R259) and the dies go to power-down. In a warm boot
W6 takes the SRX (R434), and a channel reset its own (R474). -/
def State.tripEnd (s : State) (t : BitVec 8) : State :=
  let s := s.updPwr fun p => { p with trip := false, tripChrys := false, tripRun := 0 }
  let s := s.mapChan fun _ c => c.updSt fun x => { x with tripHold := false, tripAt := none }
  let pupa := s.pwr.state == .pupa
  let s := if s.inWarm then s
    else (s.liveCh.filter fun n => !(s.chan.get (s.map.server n)).inReset).foldl (fun s n =>
      if pupa && !s.map.isFollower n then (((s.exitSr n).tmpsSoon n).pullAll n fun _ => true).enterPd n else s.exitSr n) s
  (s.raiseG 347 0 (t.setWidth 32)).updZone

/-- R329, R331, R332: the answer of one die at a check. -/
def State.checkReading (tmps : List TmpSample) (s : State) (n : Ch) (i : SidIx) : State :=
  match sampleOf tmps n i with
  | some v =>
    (s.updChan n fun c => c.updRf fun r =>
      { r with temp := upd r.temp i fun _ => v, tmpFail := upd r.tmpFail i fun _ => false }).reading n v (some i)
  | none =>
    (s.updChan n fun c => c.updRf fun r =>
      { r with temp := upd r.temp i fun _ => 0x80, tmpFail := upd r.tmpFail i fun _ => true }).raise (evTherm n) 4
      (tempDet 0x80 (some i)) 0

/-- R332, R333: the checks of a trip run: not in Chrysalis, nor on the way out of it, where its visits take their place. -/
def State.tripChecks (s : State) : Bool :=
  s.pwr.trip && !s.pwr.tripChrys && s.pwr.state != .chrysalis && s.pwr.state != .chrysMgmt

/-- R332, R333: the periodic check, 8 ms after the last, with the TMP answers of the dies. -/
def State.tripCheck (s : State) (tmps : List TmpSample) : State :=
  if !s.tripChecks then s
  else
    let s := s.advance (s.pwr.lastCheck + 8000000)
    let now := s.now
    let chs := s.checkCh
    let nsid := s.nsidNow
    let sids := (List.finRange 4).filter fun i => decide (i.val < nsid)
    let s := chs.foldl (fun s n => sids.foldl (fun s i => s.checkReading tmps n i) s) s
    let s := (chs.filter fun n => !s.map.isFollower n).foldl (fun s n =>
      s.srVisit n now fun s => State.visitRefresh n nsid (State.srTmps n nsid s)) s
    let fail := chs.any fun n => sids.any fun i => (sampleOf tmps n i).isNone
    let cool := !fail && decide (s.tHotNow < 100)
    let s := s.updZone
    if cool && decide (1 ≤ s.pwr.tripRun) then s.tripEnd (BitVec.ofInt 8 s.tHotNow)
    else s.updPwr fun p => { p with lastCheck := now, tripRun := if cool then 1 else 0 }

def execTripCheck (tmps : List TmpSample) (s : State) : Host.Outcome State Fault Refusal := .next (s.tripCheck tmps)

/-! ## The model (R334 to R337) -/

/-- Counts of all channels, modulo 2^32. -/
def State.actSum (s : State) : Nat := (allCh.map fun n => (s.chan.get n).cnt.act.toNat).sum % 2 ^ 32
def State.colSum (s : State) : Nat := (allCh.map fun n => (s.chan.get n).cnt.col.toNat).sum % 2 ^ 32
def deltaMod (new old : Nat) : Nat := (new + 2 ^ 32 - old) % 2 ^ 32

/-- R334, R339: a model parameter in force: tau_d 0, tau_s 1, theta_ds 2, theta_sa 3, P_base 4, e_act 5, e_col 6. -/
def Thermal.param (t : Thermal) (i : Fin 7) : Nat :=
  (t.model.get i).getD ((#v[Config.tauD, Config.tauS, Config.thetaDs, Config.thetaSa, Config.pBase, Config.eAct, Config.eCol]).get i)

/-- P in W from the counts of 1 ms. -/
def Thermal.power (t : Thermal) (act col : Nat) : Rat :=
  (t.param 4 : Rat) / 1000 + ((t.param 5 : Rat) * act + (t.param 6 : Rat) * col) / 1000000000

/-- One step of T_s and T_d, h = 1 ms. -/
def Thermal.step (t : Thermal) (tamb p : Rat) (x : Rat × Rat) : Rat × Rat :=
  let ts := x.1 + (1 / (t.param 1 : Rat)) * (tamb + (t.param 3 : Rat) / 1000 * p - x.1)
  let td := x.2 + (1000 / (t.param 0 : Rat)) * (ts + (t.param 2 : Rat) / 1000 * p - x.2)
  (ts, td)

def Thermal.steps (t : Thermal) (tamb p : Rat) : Nat → Rat × Rat → Rat × Rat
  | 0, x => x
  | k + 1, x => t.steps tamb p k (t.step tamb p x)

/-- R334: T_pred(c). -/
def Thermal.predict (t : Thermal) (tamb p cUse : Rat) (x : Rat × Rat) (c : Nat) : Rat :=
  let base : Rat := (t.param 4 : Rat) / 1000
  let pc := base + (p - base) * min 1 ((c : Rat) / max 1 cUse)
  (t.steps tamb pc 10 x).2

/-- R335: the largest cap whose prediction is low enough. -/
def capFor (pred : Nat → Rat) (limit : Rat) : Nat → Nat
  | 0 => 0
  | k + 1 => if pred (k + 1) ≤ limit then k + 1 else capFor pred limit k

/-- R335: multiplier code that a predicted temperature asks for. -/
def rateFor (t : Rat) : BitVec 2 := if 95 < t then 2 else if 85 < t then 1 else 0

/-- R250, R375: rate_min is the larger of the host's floor and the model's. -/
def State.applyFloors (s : State) : State :=
  let f := s.mgmt.fw
  s.mapChan fun n c =>
    let a := f.hostFloor.get n
    let b := f.modelFloor.get n
    { c with cfg := { c.cfg with rateMin := if a.toNat < b.toNat then b else a } }

/-- R335: since when a prediction has been at least 3 degrees below a boundary. -/
def coolFrom (pred : Rat) (bound : Int) (since : Option Nat) (now : Nat) : Option Nat :=
  if pred ≤ (bound - 3 : Int) then some (since.getD now) else none

/-- R335: the boundary lets the floor fall: the prediction has stayed below it for 100 ms. -/
def coolLong (since : Option Nat) (now : Nat) : Bool := since.any fun t => decide (t + 100000000 ≤ now)

/-- R335: the model's floor rises at once, and falls by each boundary that the prediction has stayed below for 100 ms. -/
def State.modelFloors (s : State) (pred : Rat) : State :=
  let now := s.now
  let t := s.mgmt.therm
  let a := coolFrom pred 85 t.rateCool now
  let b := coolFrom pred 95 t.rateCool95 now
  let cur := (s.mgmt.fw.modelFloor.get 0).toNat
  let keep := if coolLong a now && coolLong b now then 0 else if coolLong b now then min cur 1 else cur
  let next : BitVec 2 := BitVec.ofNat 2 (max keep (rateFor pred).toNat)
  ((s.updTherm fun t => { t with rateCool := a, rateCool95 := b }).updFw fun f =>
    { f with modelFloor := Vector.replicate 64 next }).applyFloors

/-- R51, R336: the cap goes out on the broadcast bus. -/
def State.broadcast (s : State) (c : Nat) : State :=
  let v := BitVec.ofNat 7 c
  let s := s.updTherm fun t => { t with cap := v }
  s.mapChan fun _ x => x.updSt fun y => { y with capBus := if y.capIn = v ∧ y.capBus = none then none else some v }

/-- R337: the budget falls while T_hot exceeds throttle. -/
def State.spendBudget (s : State) (hot : Int) : State :=
  let t := s.mgmt.therm
  let exc := hot - t.throttle.toInt
  if 0 < exc ∧ 0 < t.budget then
    let b := max 0 (t.budget - exc)
    let s := s.updTherm fun t => { t with budget := b }
    if b ≤ 0 then s.raiseG 346 (t.floor.setWidth 24) 0 else s
  else s

/-- R374: values set since the last step come into force. -/
def Thermal.takeSettings (t : Thermal) : Thermal :=
  let t := match t.pendFloor with
    | some (f, b) => { t with floor := f, bMax := b, budget := min t.budget b.toNat, pendFloor := none }
    | none => t
  match t.pendThr with
  | some (w, h) => { t with warn := w, throttle := h, pendThr := none }
  | none => t

/-- R55, R334: firmware runs the model, while its domain is on. -/
def State.modelRuns (s : State) : Bool := s.mgmt.fw.st == .ready && s.mgmtOn

/-- R337, R374, R413: settings come into force; a budget that they take to 0 is reported. -/
def State.setTherm (s : State) (f : Thermal → Thermal) : State :=
  let was := s.mgmt.therm.budget
  let s := s.updTherm f
  if 0 < was ∧ s.mgmt.therm.budget ≤ 0 then s.raiseG 346 (s.mgmt.therm.floor.setWidth 24) 0 else s

/-- R334 to R338: one step of the model, every 1 ms while firmware runs. t_pred is rounded down, and goes no lower than -127, since
0x80 says that there has been no step (log entry 67, DESIGN CHOICE). -/
def State.thermalModelStep (s : State) : State :=
  if !s.modelRuns then s
  else
    let s := (s.setTherm (·.takeSettings)).updZone
    let t := s.mgmt.therm
    let act := deltaMod s.actSum t.lastAct
    let col := deltaMod s.colSum t.lastCol
    let p := t.power act col
    let hot := s.tHotNow
    let (ts, td) := t.step t.tamb p (t.ts, t.td)
    let err : Rat := hot - td
    let td := td + err / 2
    let tamb := t.tamb + err / 100
    let cUse : Rat := (col * 64 : Nat) / ((1000000 * max 1 s.map.nslot : Nat) : Rat)
    let pred := t.predict tamb p cUse (ts, td)
    let cl := capFor pred (t.throttle.toInt - 1 / 2 : Rat) 64
    let cl := min cl (t.cLoop + 8)
    let s := s.spendBudget hot
    let useFloor := decide (hot < t.throttle.toInt) || (decide (hot < 105) && decide (0 < s.mgmt.therm.budget))
    let app := if useFloor then max cl t.floor.toNat else cl
    let pt := pred app
    let now := s.now
    let s := s.updTherm fun x =>
      { x with ts := ts, td := td, tamb := tamb, cLoop := cl, lastAct := s.actSum, lastCol := s.colSum,
               floorBind := useFloor && decide (cl < t.floor.toNat), tPred := BitVec.ofInt 8 (max (-127) (min 127 pt.floor)),
               coolSince := if hot ≤ x.warn.toInt then some (x.coolSince.getD now) else none }
    (s.broadcast app).modelFloors pt

def execThermalModelStep (s : State) : Host.Outcome State Fault Refusal := .next s.thermalModelStep

/-- R337: T_hot has stayed at or below warn for 1 s. -/
def State.budgetRefill (s : State) : State :=
  match s.mgmt.therm.coolSince with
  | none => s
  | some t => if s.modelRuns then (s.advance (t + 1000000000)).updTherm fun x => { x with budget := x.bMax.toNat } else s

def execBudgetRefill (s : State) : Host.Outcome State Fault Refusal := .next s.budgetRefill

end Sys2Proof.Machine
end

