-- ==== Sys2Proof/Machine/Refresh.lean ====
section
/-! DEFINITION. Refresh ticks, die temperature, tracker epochs and drains, and the refresh bursts of Pupa (chapter 08,
R248 to R269; R466). -/

namespace Sys2Proof.Machine

/-- The first value from `start` on that is `off` modulo `iv`. -/
def nextPhase (start off iv : Nat) : Nat :=
  let r := (start + iv - off % iv) % iv
  if r = 0 then start else start + (iv - r)

/-- R253, R259, R260: the engine keeps this channel's refresh. -/
def State.refreshes (s : State) (n : Ch) : Bool :=
  let c := s.chan.get n
  s.clk.pllLock && (s.map.mapped.getLsbD n.val || c.init.isSome) && !s.map.isFollower n && !c.inReset
    && c.st.pwr != .selfRefresh

/-! ## Ticks (R251, R253) -/

/-- R253: the phase of a unit's ticks. -/
def Chan.tickOff (c : Chan) (b : BankIx) (iv : Nat) : Nat :=
  if c.cfg.refAllBank then (bankSid b).val * (iv / 4) else (4 * bankB b + (bankSid b).val) * (iv / 64)

/-- R253: a unit's next tick: its debt rises by 1; after SRX the first comes once the TMP of its SID has been decoded (R260). -/
def State.refreshTick (s : State) (n : Ch) (b : BankIx) : State :=
  let c := s.chan.get n
  let iv := (s.tim n).tREFIeff (c.rf.mult.get b)
  if !s.refreshes n || c.unitOf b != b || decide (s.map.nsid ≤ (bankSid b).val) || c.dieRefreshes b || c.rf.waitTmp.get (bankSid b) || iv == 0 then s
  else
    let t := nextPhase (max s.tb (c.rf.tickFrom.get b)) (c.tickOff b iv) iv
    let s := s.advanceTb t
    let m := s.mult n (bankSid b)
    s.updChan n fun c => c.updRf fun r =>
      let d := r.debt.get b + 1
      { r with debt := upd r.debt b fun _ => d, owed := if 1 ≤ d then upd r.owed b (· ++ [t]) else r.owed,
               mult := upd r.mult b fun _ => m, tickFrom := upd r.tickFrom b fun _ => t + 1 }

def execRefreshTick (n : Ch) (b : BankIx) (s : State) : Host.Outcome State Fault Refusal :=
  .next ((s.refreshTick n b).watch n)

/-! ## Core-die temperature (R248, R249, R280) -/

/-- R249: the TMP of a SID becomes due at its slot of the 256 us (log entry 15, DESIGN CHOICE); not while the dies are in power-down,
where they take no command but PDX (R284; log entry 68, DEDUCED). -/
def State.tmpDue (s : State) (n : Ch) (sid : SidIx) : State :=
  let c := s.chan.get n
  if !s.refreshes n || c.st.pwr != .active || decide (s.map.nsid ≤ sid.val) || c.rf.tmpDue.contains sid then s
  else
    let t := nextPhase (max s.tb (c.rf.tmpFrom.get sid)) (sid.val * (256000 / max 1 s.map.nsid)) 256000
    (s.advanceTb t).updChan n fun c => c.updRf fun r =>
      { r with tmpDue := r.tmpDue ++ [sid], tmpFrom := upd r.tmpFrom sid fun _ => t + 1 }

def execTmpDue (n : Ch) (sid : SidIx) (s : State) : Host.Outcome State Fault Refusal := .next (s.tmpDue n sid)

/-- R248: the multiplier that a temperature requires. -/
def rateOf (t : Int) : Nat := if t ≤ 85 then 1 else if t ≤ 95 then 2 else 4

/-- R249: m_temp after a valid reading. -/
def Refresh.valid (r : Refresh) (sid : SidIx) (v : BitVec 8) : Refresh :=
  let t := v.toInt
  let m := r.mTemp.get sid
  let r := { r with waitTmp := upd r.waitTmp sid fun _ => false, temp := upd r.temp sid fun _ => v, tmpFail := upd r.tmpFail sid fun _ => false }
  let set := fun (m k : Nat) => { r with mTemp := upd r.mTemp sid fun _ => m, fallCnt := upd r.fallCnt sid fun _ => k }
  if r.direct.get sid then { set (rateOf t) 0 with direct := upd r.direct sid fun _ => false }
  else if m < rateOf t then set (rateOf t) 0
  else if (m = 2 ∧ t ≤ 82) ∨ (m = 4 ∧ t ≤ 92) then
    (if 4 ≤ r.fallCnt.get sid + 1 then set (m / 2) 0 else set m (r.fallCnt.get sid + 1))
  else set m 0

/-- R249: m_temp after a failed read. -/
def Refresh.failed (r : Refresh) (sid : SidIx) : Refresh :=
  { r with waitTmp := upd r.waitTmp sid fun _ => false, temp := upd r.temp sid fun _ => 0x80, tmpFail := upd r.tmpFail sid fun _ => true,
           mTemp := upd r.mTemp sid fun _ => 4, fallCnt := upd r.fallCnt sid fun _ => 0,
           direct := upd r.direct sid fun _ => true }

/-- R154, R280: the burst of an MRR of firmware is decoded. -/
def State.mrReading (s : State) (n : Ch) (q : SidIx × Nat) (burst : BitVec 512) : State :=
  (s.advance (q.2 + (s.tim n).rl + 2)).updChan n fun c => c.updSt fun x =>
    { x with mrVal := burstValue burst, mrSent := x.mrSent.erase q }

/-- R249, R280: the burst that a die answers a TMP with is decoded, or the burst of an MRR of firmware that went to the die
before it. -/
def State.tmpReading (s : State) (n : Ch) (sid : SidIx) (burst : BitVec 512) : State :=
  let c := s.chan.get n
  let sent := (c.st.hist.filter fun p => p.op == .tmp && p.loc.sidIx == sid).getLast?
  let mine := (c.st.mrSent.find? (·.1 == sid)).filter fun q =>
    !c.rf.tmpSent.contains sid || sent.any fun p => decide (q.2 < p.at_)
  let unsure := (s.chan.get (s.map.server n)).unsure
  match mine with
  | some q => if unsure q.2 then s else s.mrReading n q burst
  | none =>
  if !c.rf.tmpSent.contains sid || sent.any (fun p => unsure p.at_) then s
  else
    let s := match sent with
      | some p => s.advance (p.at_ + (s.tim n).rl + 2)
      | none => s
    let s := s.updChan n fun c => c.updRf fun r => { r with tmpSent := r.tmpSent.erase sid }
    match burstValue burst with
    | some v =>
      if v = 0x80 then (s.updChan n fun c => c.updRf (·.failed sid)).raise (evTherm n) 4 (tempDet 0x80 (some sid)) 0
      else (s.updChan n fun c => c.updRf fun r => r.valid sid v).reading n v (some sid)
    | none => (s.updChan n fun c => c.updRf (·.failed sid)).raise (evTherm n) 4 (tempDet 0x80 (some sid)) 0

def execTmpReading (n : Ch) (sid : SidIx) (burst : BitVec 512) (s : State) : Host.Outcome State Fault Refusal :=
  .next (s.tmpReading n sid burst)

/-! ## Trackers (R261 to R265, R466) -/

/-- R263: what a boundary makes of a tracker. -/
def Tracker.epoch (t : Tracker) (now tb : Nat) : Tracker :=
  { t with ents := t.ents.map fun e =>
             if e.sweep then e else if t.valid e then { e with sweep := true, sweepAt := now } else { e with v := 0 },
           s := 0, epochFrom := tb + 1 }

/-- R263: the next epoch boundary of a bank. -/
def State.trackerEpochBoundary (s : State) (n : Ch) (b : BankIx) : State :=
  let iv := (s.tim n).ck 26 * 1000
  if !s.clk.pllLock || iv == 0 then s
  else
    let t := nextPhase (max s.tb ((s.chan.get n).trk b).epochFrom) (bankB b * (iv / 16)) iv
    let s := s.advanceTb t
    let now := s.now
    s.updChan n fun c => c.updTrk b fun k => k.epoch now t

def execTrackerEpochBoundary (n : Ch) (b : BankIx) (s : State) : Host.Outcome State Fault Refusal :=
  .next (s.trackerEpochBoundary n b)

/-- R263: the oldest sweep entry of a bank reaches 4 us; at most one TRF of a bank is issued so in any 4 us. -/
def State.sweepDeadline (s : State) (n : Ch) (b : BankIx) : State :=
  let k := (s.chan.get n).trk b
  match minOn (·.sweepAt) (k.ents.filter (·.sweep)) with
  | none => s
  | some e =>
    if (s.chan.get n).rf.trf.any fun r => r.bank == b && r.why == .sweep then s
    else
      let s := s.advance (max (e.sweepAt + 4000) (match k.lastSweepDl with
        | some t => t + 4000
        | none => 0))
      let now := s.now
      let r : TrfReq := { bank := b, row := e.row, why := .sweep, at_ := now }
      s.updChan n fun c => c.updRf fun x => { x with trf := x.trf ++ [r] }

def execSweepDeadline (n : Ch) (b : BankIx) (s : State) : Host.Outcome State Fault Refusal := .next (s.sweepDeadline n b)

/-- R466: entries of the tracker fail their parity as they are read, one at least: each is counted and discarded, and the drain
begins. Which ones fail is free (log entry 17, DEDUCED). -/
def State.parityFound (s : State) (n : Ch) (bank : BankIx) : State :=
  let k := (s.chan.get n).trk bank
  let (j, s) := s.drawNat k.ents.length
  let (b, s) := s.drawBits 128
  let bad := fun (i : Nat) => i == j || b.getLsbD i
  let all := k.ents.zipIdx
  let left := (all.filter fun x => !bad x.2).map (·.1)
  s.updChan n fun c =>
    (c.updCnt fun x => { x with trkPerr := x.trkPerr + BitVec.ofNat 32 (k.ents.length - left.length) }).updTrk bank fun k =>
      { k with ents := left, drain := true, drainTrf := 0 }

/-- R466: the drain of a bank has ended: its tracker restarts empty. For a tracker that is not draining and holds
entries the command is the parity error itself, whose entry is free (log entry 17, DEDUCED). -/
def State.trackerDrainDone (s : State) (n : Ch) (b : BankIx) : State :=
  let k := (s.chan.get n).trk b
  if !k.drain then (if k.ents.isEmpty then s else s.parityFound n b)
  else if k.ents.any fun e => e.sweep || k.valid e then s
  else s.updChan n fun c => c.updTrk b fun k => { k with ents := [], s := 0, drain := false, drainTrf := 0 }

def execTrackerDrainDone (n : Ch) (b : BankIx) (s : State) : Host.Outcome State Fault Refusal :=
  .next (s.trackerDrainDone n b)

/-! ## Pupa (R259) -/

/-- R259, R310: the dies are in the power-down of Pupa: in Pupa itself, and on a way from it to Chrysalis, up to its step E5. -/
def State.inPupaPd (s : State) : Bool := s.pwr.state == .pupa || (s.pwr.state == .toChrysalis && s.pwr.from_ == .pupa)

/-- R259 step 2: a unit of the pseudo-channel has reached d = 7: PDX; the refreshes follow CC by CC (SCHEDULER_CC). -/
def State.pupaRefreshBurstStart (s : State) (n : Ch) (p : Pc) : State :=
  let c := s.chan.get n
  if s.inPupaPd && c.st.pwr == .powerDown && s.refreshes n
      && ((c.units s.map.nsid).any fun u => bankPc u == p && decide (7 ≤ c.rf.debt.get u)) then
    let s := if c.inBurst then s else s.issueSoon n .pdx chanLoc 0 0
    s.updChan n fun c => c.updRf fun r => { r with burst := upd r.burst p fun _ => true }
  else s

def execPupaRefreshBurstStart (n : Ch) (pc : Pc) (s : State) : Host.Outcome State Fault Refusal :=
  .next (s.pupaRefreshBurstStart n pc)

/-- R259 step 2: every unit of the pseudo-channel is back at d = -8: the refreshes not yet issued have been by now, and PDE
follows. -/
def State.pupaRefreshBurstDone (s : State) (n : Ch) (p : Pc) : State :=
  let c := s.chan.get n
  if c.rf.burst.get p && c.st.pwr == .powerDown then
    let s := (s.pullAll n (· == p)).updChan n fun c => c.updRf fun r => { r with burst := upd r.burst p fun _ => false }
    if (s.chan.get n).inBurst then s else s.issueSoon n .pde chanLoc 0 0
  else s

def execPupaRefreshBurstDone (n : Ch) (pc : Pc) (s : State) : Host.Outcome State Fault Refusal :=
  .next (s.pupaRefreshBurstDone n pc)

end Sys2Proof.Machine
end

