-- ==== Sys2Proof/Machine/Recal.lean ====
section
/-! DEFINITION. Recalibration pauses, measurements, lane and command spares, requalification (chapter 09, R285 to R304). -/

namespace Sys2Proof.Machine

/-! ## Starting a pause (R294 to R299) -/

/-- R297: pseudo-channels closing or offline. -/
def State.offlineCount (s : State) : Nat :=
  (allCh.map fun n => b2n ((s.chan.get n).offline 0) + b2n ((s.chan.get n).offline 1)).sum

def pausePcs (pc : Option Pc) : List Pc := match pc with
  | some p => [p]
  | none => [0, 1]

/-- R141, R298: the pseudo-channels of a pause are marked closing; both channels of a joined pair. An urgent channel pause
that starts after a command-lane flow is the one which that flow asked for (R304). -/
def State.startPause (s : State) (n : Ch) (pc : Option Pc) (sched : Bool) : State :=
  (s.map.reach n).foldl (fun s k => s.updChan k fun c =>
    let c := (pausePcs pc).foldl (fun (c : Chan) p => c.updPc p fun g =>
      { g with pause := .closing, chPause := pc.isNone, fresh := 0 }) c
    { c.updCnt fun x => { x with pause := x.pause + 1 } with cmdNow := !sched && pc.isNone && c.cmdFlow }) s

/-- R297: a pause may start: none of its pseudo-channels is in one, and no more than 8 would be held. -/
def State.mayPause (s : State) (n : Ch) (pc : Option Pc) : Bool :=
  (pausePcs pc).all (fun p => !(s.chan.get n).offline p) &&
    decide (s.offlineCount + (pausePcs pc).length * (s.map.reach n).length ≤ 8)

/-- R294, R295: the slot of a pseudo-channel; every 16th of PC0 is a channel pause. -/
def State.recalPauseStart (s : State) (n : Ch) (p : Pc) : State :=
  let c := s.chan.get n
  if !c.cfg.recalEn || !s.pwr.inImago || !s.clk.pllLock || s.map.isFollower n
      || !s.map.mapped.getLsbD n.val || s.map.hole.getLsbD n.val || c.inReset || c.st.pwr != .active then s
  else
    let t := nextPhase (max s.tb (c.pc.get p).slotFrom) ((2 * n.val + p.val) * 125000) 16000000
    let s := s.advanceTb t
    let s := s.updChan n fun c => c.updPc p fun g => { g with slotFrom := t + 1 }
    let pc := if p = 0 ∧ t / 16000000 % 16 = n.val % 16 then none else some p
    if s.mayPause n pc then s.startPause n pc true
    else s.updFw fun f => { f with urgent := waitPause f.urgent { n := n, pc := pc, sched := true } }

def execRecalPauseStart (n : Ch) (pc : Pc) (s : State) : Host.Outcome State Fault Refusal :=
  .next (s.recalPauseStart n pc).watchAll

/-- R297: the first waiting pause starts as soon as it can. -/
def State.urgentPauseStart (s : State) : State :=
  match s.mgmt.fw.urgent with
  | [] => s
  | r :: l =>
    if s.pwr.inImago && s.mayPause r.n r.pc && (s.chan.get r.n).st.pwr == .active then
      (s.updFw fun f => { f with urgent := l }).startPause r.n r.pc r.sched
    else s

def execUrgentPauseStart (s : State) : Host.Outcome State Fault Refusal := .next s.urgentPauseStart.watchAll

/-! ## Closing (R141, R257) -/

/-- The pseudo-channels that the pause of `p` holds. -/
def Chan.pausedWith (c : Chan) (p : Pc) : List Pc := if (c.pc.get p).chPause then [0, 1] else [p]

/-- R141, R257: data have returned, those of write-backs too, every bank is closed, by auto-precharge where one runs, and no
refresh or TRF with deadline priority is left. -/
def State.pcClosed (s : State) (n : Ch) (p : Pc) : Bool :=
  let c := s.chan.get n
  (c.pc.get p).pause == .closing
    && c.st.tt.all (fun e => e.loc.pcIx != p || e.retryDue || !(e.st == .colrd || e.st == .colwr))
    && (List.finRange 16).all (fun i => !(c.lbFlying s.now i) || ((c.st.lb.get i).line.all fun l => l.pcIx != p))
    && !(c.repair.any fun r => r.phase == 5 && r.loc.pcIx == p)
    && allBank.all (fun b => bankPc b != p || ((c.bank b).row.isNone && !c.apWaits s.now b))
    && (c.dueUnits s.map.nsid).all (fun u => bankPc u != p) && (c.dueTrfs (s.actOpen n)).all (fun r => bankPc r.bank != p)

/-- R141 step 4, R296: the entries of the pseudo-channel go to HOLD and the measurement starts. -/
def State.pauseClosed (s : State) (n : Ch) (p : Pc) : State :=
  let c := s.chan.get n
  if s.map.isFollower n || !(c.pausedWith p).all (s.pcClosed n) then s
  else
    (s.map.reach n).foldl (fun s k => s.updChan k fun x =>
      ((c.pausedWith p).foldl (fun (x : Chan) q => x.updPc q fun g => { g with pause := .measure }) x).rehit) s

def execPauseClosed (n : Ch) (pc : Pc) (s : State) : Host.Outcome State Fault Refusal :=
  .next (s.pauseClosed n pc).watchAll

/-! ## Measurements (R290 to R293) -/

def eyeCentre (e : Eye) : Nat := (e.left + e.right) / 2
def eyeWidth (e : Eye) : Nat := e.right - e.left

/-- |a - b| ≤ 1. -/
def near (a b : Nat) : Bool := decide (a ≤ b + 1) && decide (b ≤ a + 1)

/-- R290: an edge is located inside the window: the edge of the last agreed measurement and two taps on either side. -/
def inWindow (last x : Nat) : Bool := decide (x ≤ last + 2) && decide (last ≤ x + 2)

/-- R290: the result of a tracking measurement, none where an edge is not located. -/
def eyeLocated (last : Eye) (m : Option Eye) : Option Eye :=
  m.filter fun e => inWindow last.left e.left && inWindow last.right e.right

/-- Two measurements that agree. -/
def agreePair (a b : Option Eye) : Option (Eye × Eye) :=
  match a, b with
  | some x, some y => if near (eyeCentre x) (eyeCentre y) then some (x, y) else none
  | _, _ => none

/-- R290: repeat agreement over the (two or three) measurements. -/
def agreed (ms : List (Option Eye)) : Option (Eye × Eye) :=
  let m1 := ms.getD 0 none
  let m2 := ms.getD 1 none
  let m3 := ms.getD 2 none
  ((agreePair m1 m2).orElse fun _ => agreePair m1 m3).orElse fun _ => agreePair m2 m3

/-- R290: the rounded mean of the centres, ties toward the current tap. -/
def tapOf (cur : Nat) (p : Eye × Eye) : BitVec 6 :=
  let sum := eyeCentre p.1 + eyeCentre p.2
  BitVec.ofNat 6 (if sum % 2 = 0 then sum / 2 else if cur ≤ sum / 2 then sum / 2 else sum / 2 + 1)

/-- The smaller width of a pair. -/
def pairWidth (p : Eye × Eye) : Nat := min (eyeWidth p.1) (eyeWidth p.2)

/-- R290: the windows of edges that some measurement did not locate move 2 taps outward. -/
def eyeWiden (last : Eye) (ms : List (Option Eye)) : Eye :=
  let missed := fun (at_ : Eye → Bool) => ms.any fun m => !m.any at_
  { left := if missed fun e => inWindow last.left e.left then last.left - 2 else last.left,
    right := if missed fun e => inWindow last.right e.right then min 63 (last.right + 2) else last.right }

/-- R290: the procedure for one eye of a lane: the agreed pair, and the edges that the next pause tracks from: those of the
later measurement of the pair (log entry 58, DESIGN CHOICE). A measurement that is not given has no result. -/
def trackEye (last : Eye) (ms : List (Option Eye)) : Option (Eye × Eye) × Eye :=
  let at2 := (List.range 2).map fun i => ms.getD i none
  let used := if (agreed (at2.map (eyeLocated last))).isSome then at2 else at2 ++ [ms.getD 2 none]
  match agreed (used.map (eyeLocated last)) with
  | some p => (some p, p.2)
  | none => (none, eyeWiden last used)

/-- R290, R292: what a pause makes of a lane, with the number of disagreements; the width of the selected sampler agreed;
every eye measured agreed. -/
structure LaneRes where
  lane : Lane
  bad : Nat
  wide : Bool
  fresh : Bool
  deriving DecidableEq, Repr

/-- R291: consecutive pauses with a disagreement (log entry 58, DESIGN CHOICE: one for all the eyes of a pause). -/
def Lane.count (l : Lane) (bad : Nat) : Lane := { l with disagree := if bad = 0 then 0 else l.disagree + 1 }

/-- R290, R292, R294, R295, R303: a data lane: its read eye on both samplers, and its write eye but in a channel pause. -/
def Lane.measured (l : Lane) (m : LaneMeas) (chPause : Bool) (bootMin : Nat) : LaneRes :=
  let ra := trackEye l.eyeA m.a
  let rb := trackEye l.eyeB m.b
  let rt := if chPause then (none, l.eyeT) else trackEye l.eyeT m.tx
  let cur := if l.samplerB then rb.1 else ra.1
  let oth := if l.samplerB then ra.1 else rb.1
  let bad := b2n ra.1.isNone + b2n rb.1.isNone + b2n (!chPause && rt.1.isNone)
  let was := l.rxTap.toNat
  let l := { l with eyeA := ra.2, eyeB := rb.2, eyeT := rt.2 }
  let l := match cur with
    | none => { l with goodPauses := 0 }
    | some p =>
      let w := pairWidth p
      let l := { l with width := BitVec.ofNat 6 w, rxTap := tapOf was p }
      let l := match oth with
        | some q => if w + 4 ≤ pairWidth q then
            { l with samplerB := !l.samplerB, rxTap := tapOf was q, width := BitVec.ofNat 6 (pairWidth q) }
          else l
        | none => l
      { l with goodPauses := if bootMin ≤ l.width.toNat then l.goodPauses + 1 else 0 }
  let l := match rt.1 with
    | some p => { l with txTap := tapOf l.txTap.toNat p }
    | none => l
  { lane := l.count bad, bad := bad, wide := cur.isSome, fresh := decide (bad = 0) }

/-- R290, R295: a command lane: its loopback eye. -/
def Lane.looped (l : Lane) (m : LaneMeas) : LaneRes :=
  let r := trackEye l.eyeT m.tx
  let bad := b2n r.1.isNone
  let l := { l with eyeT := r.2 }
  let l := match r.1 with
    | some p => { l with txTap := tapOf l.txTap.toNat p, width := BitVec.ofNat 6 (pairWidth p) }
    | none => l
  { lane := l.count bad, bad := bad, wide := r.1.isSome, fresh := r.1.isSome }

/-- R291: the eighth consecutive disagreement of a lane is reported, and its count restarts. -/
def State.eighth (s : State) (n : Ch) (grp i : Nat) (l : Lane) : Lane × State :=
  if 8 ≤ l.disagree then
    let s' := s.updChan n fun c => { c with laneIdx := BitVec.ofNat 2 grp ++ BitVec.ofNat 6 i }
    ({ l with disagree := 0 }, s.raise (evLane n) 3 (laneDet grp i) (s'.chan.get n).laneInfo)
  else (l, s)

/-- R301: the logical lane that a physical lane of a group carries. -/
def LaneGroup.carried (g : LaneGroup) (i : Nat) : Option Nat :=
  let l := g.lanes.get (Fin.ofNat 38 i)
  if i < 36 then (if l.role = 0 then some i else none)
  else if l.role = 3 then some (g.spares.get (Fin.ofNat 2 (i - 36))).lane.toNat else none

/-- R304: the command-lane flow starts: firmware asks for an urgent channel pause, after its restart where it restarts (R55). -/
def State.startCmdFlow (s : State) (n : Ch) : State :=
  if (s.chan.get n).cmdFlow then s
  else
    let s := s.updChan n fun c => { c with cmdFlow := true }
    if s.fw.st == .restarting then s else s.askUrgent n none

/-- R293: the width of a lane after an agreed measurement. -/
def State.checkWidth (s : State) (n : Ch) (p : Option Pc) (i : Nat) (l : Lane) : State :=
  let c := s.chan.get n
  let w := l.width.toNat
  let grp := match p with
    | some q => q.val
    | none => 2
  let det := laneDet grp i + BitVec.ofNat 24 (min 255 w)
  if c.cfg.warn ≤ w then s
  else
    let s := (s.updChan n fun c => c.updCnt fun k => { k with margin := k.margin + 1 }).raise (evLane n) 4 det 0
    if c.cfg.fail ≤ w then s
    else
      match p with
      | none => if l.role = 0 ∨ l.role = 3 then s.startCmdFlow n else s
      | some q =>
        match (c.pc.get q).carried i with
        | some k => s.markLane n q k 5 det 0
        | none => s

/-- The measurements of a lane in a list; none were given for one that is not in it. -/
def measOf (ms : List LaneMeas) (i : Nat) : LaneMeas :=
  (ms.find? (·.lane == i)).getD { lane := i, a := [], b := [], tx := [] }

/-- R290 to R293: what follows from the measurement of a lane (of a command lane, where no pseudo-channel is named). -/
def State.laneMeasured (s : State) (n : Ch) (p : Option Pc) (i : Nat) (r : LaneRes) : Lane × State :=
  let s := s.updChan n fun c => c.updCnt fun k => { k with disagree := k.disagree + BitVec.ofNat 32 r.bad }
  let grp := match p with
    | some q => q.val
    | none => 2
  let (l, s) := s.eighth n grp i r.lane
  (l, if r.wide then s.checkWidth n p i l else s)

/-- One lane of a data group. -/
def State.dataLane (n : Ch) (p : Pc) (ms : List LaneMeas) (acc : (Vector Lane 38 × BitVec 38) × State) (i : Fin 38) :
    (Vector Lane 38 × BitVec 38) × State :=
  let ((v, f), s) := acc
  let c := s.chan.get n
  let r := (v.get i).measured (measOf ms i.val) (c.pc.get p).chPause c.cfg.bootMin
  let (l, s) := s.laneMeasured n (some p) i.val r
  ((v.set i.val l i.isLt, if r.fresh then f ||| BitVec.twoPow 38 i.val else f), s)

/-- One command lane. -/
def State.cmdLaneMeas (n : Ch) (ms : List LaneMeas) (acc : Vector Lane 20 × State) (i : Fin 20) : Vector Lane 20 × State :=
  let (v, s) := acc
  let (l, s) := s.laneMeasured n none i.val ((v.get i).looped (measOf ms i.val))
  (v.set i.val l i.isLt, s)

/-- R294 to R296: the measurement phase of a pseudo-channel ends: every lane of the group has been measured, and in a channel
pause, with PC0, the command lanes; the results come into force at the end of the pause (R306). -/
def State.pauseMeasurementDone (s : State) (n : Ch) (p : Pc) (ms cms : List LaneMeas) : State :=
  let g := (s.chan.get n).pc.get p
  if g.pause != .measure then s
  else
    let ((v, f), s) := (List.finRange 38).foldl (State.dataLane n p ms) ((g.lanes, 0), s)
    let s := s.updChan n fun c => c.updPc p fun g => { g with pause := .apply, newLanes := some v, fresh := f }
    if g.chPause && p == 0 then
      let (w, s) := (List.finRange 20).foldl (State.cmdLaneMeas n cms) ((s.chan.get n).cmdLane, s)
      s.updChan n fun c => { c with newCmd := some w }
    else s

def execPauseMeasurementDone (n : Ch) (pc : Pc) (ms cms : List LaneMeas) (s : State) : Host.Outcome State Fault Refusal :=
  .next (s.pauseMeasurementDone n pc ms cms)

/-! ## Applying (R286, R301, R304, R307) -/

/-- R307: selections written by firmware come into force. -/
def Lane.takeSel (l : Lane) : Lane :=
  { l with samplerB := l.selSampler.getD l.samplerB, rxTap := l.selRx.getD l.rxTap, txTap := l.selTx.getD l.txTap,
           selSampler := none, selRx := none, selTx := none }

/-- The spare lane job of LANE_SPARE for a data lane (R382). -/
def State.laneJob (s : State) (n : Ch) (p : Option Pc) (lane : Nat) : Option LaneJob :=
  s.mgmt.fw.laneJobs.find? fun j => j.n == n && j.pc == p && j.lane == lane

def State.dropLaneJob (s : State) (j : LaneJob) : State :=
  s.updFw fun f => { f with laneJobs := f.laneJobs.filter (· != j) }

/-- Answer a LANE_SPARE. -/
def State.laneAnswer (s : State) (j : Option LaneJob) (status : BitVec 4) (result : BitVec 8) (keep : Bool) : State :=
  match j with
  | none => s
  | some j =>
    let s := if j.answered then s else s.answerTo (j.mb.map fun k => (k, j.tag)) status result
    if keep then s.updFw fun f => { f with laneJobs := f.laneJobs.map fun x => if x = j then { x with answered := true } else x }
    else s.dropLaneJob j

/-- R302, R368: LANE_DONE. -/
def State.laneDone (s : State) (j : LaneJob) (status : BitVec 4) : State :=
  match j.mb with
  | none => s
  | some k => s.notice k 2 status

/-- R302: a sweep is abandoned; its lane stays marked. -/
def State.abandonRequal (s : State) (n : Ch) (p : Pc) : State :=
  match ((s.chan.get n).pc.get p).requal with
  | none => s
  | some lane =>
    let s := s.stir.updChan n fun c => c.updPc p fun g => { g with requal := none, requalNext := 0, requalWait := [] }
    match s.laneJob n (some p) lane.val with
    | some j => (s.laneDone j stABORTED).dropLaneJob j
    | none => s

/-- A spare that carries the lane already is replaced: it leaves service as failed. -/
def LaneGroup.retire (g : LaneGroup) (lane : Nat) : LaneGroup :=
  (List.finRange 2).foldl (fun (g : LaneGroup) i =>
    if (g.spares.get i).en && (g.spares.get i).lane.toNat == lane then
      { g with spares := upd g.spares i fun x => { x with en := false, failed := true },
               lanes := upd g.lanes (Fin.ofNat 38 (36 + i.val)) fun l => { l with role := 2 } }
    else g) g

/-- The data spare of a pseudo-channel that carries a lane. -/
def LaneGroup.carrier (g : LaneGroup) (lane : Nat) : Option (Fin 2) :=
  (List.finRange 2).find? fun i => (g.spares.get i).en && (g.spares.get i).lane.toNat == lane

/-- R286: the selected data spare goes into service for its lane, at both ends; one that carried the lane until now leaves
service at both. -/
def State.putSpare (s : State) (n : Ch) (p : Pc) (i : Fin 2) (lane : Fin 36) : State :=
  let reg := fun (j : Fin 2) => 0x60 + 2 * p.val + j.val
  let s := match ((s.chan.get n).pc.get p).carrier lane.val with
    | some j => s.mrwOwn n (reg j) 0
    | none => s
  (s.mrwOwn n (reg i) (BitVec.ofNat 8 (128 + lane.val))).updChan n fun c => c.updPc p fun g =>
    let g := g.retire lane.val
    { g with sel := none, spares := upd g.spares i fun _ => { en := true, lane := BitVec.ofNat 6 lane.val, failed := false },
             lanes := upd (upd g.lanes (Fin.ofNat 38 (36 + i.val)) fun l => { l with role := 3 }) (Fin.ofNat 38 lane.val) fun l =>
               { l with role := 2 },
             requal := some lane, requalNext := 0, requalWait := [] }

/-- R286, R301, R302: the selected data spare is switched in, if the pause has measured it and it has met boot_min, every eye
measured having agreed (R290; log entry 65, DESIGN CHOICE); a selection written during the pause takes part in it (log entry
65, DESIGN CHOICE). This rests while Priri restarts (R55), and while a repair holds a die of the channel in its mode (R237,
R283). -/
def State.switchSpare (s : State) (n : Ch) (p : Pc) : State :=
  let c := s.chan.get n
  let g := c.pc.get p
  match g.sel with
  | none => s
  | some (i, lane) =>
    let phys : Fin 38 := Fin.ofNat 38 (36 + i.val)
    let j := s.laneJob n (some p) lane.val
    if s.fw.st == .restarting || (s.chan.get (s.map.server n)).repairHolds then s
    else if g.fresh.getLsbD phys.val && decide (c.cfg.bootMin ≤ (g.lanes.get phys).width.toNat) then
      let s := if g.requal == some lane then s else s.abandonRequal n p
      (s.putSpare n p i lane).laneAnswer j stOK (BitVec.ofNat 8 i.val) true
    else
      let s := s.updChan n fun c => c.updPc p fun g =>
        { g with sel := none, spares := upd g.spares i fun x => { x with failed := true },
                 lanes := upd g.lanes phys fun l => { l with role := 2 } }
      (if g.marks.getLsbD lane.val then s.noSpare n p else s).laneAnswer j stFAULT 0 false

/-- A command spare that can be used. -/
def Chan.freeCsp (c : Chan) : Option (Fin 2) := (List.finRange 2).find? fun i => !(c.csp.get i).en && !(c.csp.get i).failed

/-- The command spare that carries a command lane. -/
def Chan.cspOf (c : Chan) (lane : Nat) : Option (Fin 2) :=
  (List.finRange 2).find? fun i => (c.csp.get i).en && (c.csp.get i).lane.toNat == lane

/-- The physical lane that carries a command lane. -/
def Chan.cmdPhys (c : Chan) (lane : Nat) : Lane := match c.cspOf lane with
  | some i => c.cmdLane.get (Fin.ofNat 20 (18 + i.val))
  | none => c.cmdLane.get (Fin.ofNat 20 lane)

/-- R304: the command lane of narrowest eye (of a bus: 36 row, 37 column), by the lane that carries it. -/
def Chan.narrowest (c : Chan) (bus : Option Nat) : Option Nat :=
  minOn (fun i => (c.cmdPhys i).width.toNat) ((List.range 18).filter fun i => match bus with
    | some b => if b = 36 then decide (i < 10) else decide (10 ≤ i)
    | none => true)

/-- A command spare that carries the lane already is replaced: it leaves service as failed. -/
def Chan.retireCsp (c : Chan) (lane : Nat) : Chan := match c.cspOf lane with
  | none => c
  | some j =>
    { c with csp := upd c.csp j fun x => { x with en := false, failed := true },
             cmdLane := upd c.cmdLane (Fin.ofNat 20 (18 + j.val)) fun l => { l with role := 2 } }

/-- R286: a command spare takes the place of a command lane, or of the spare that carried it. -/
def Chan.putCsp (c : Chan) (i : Fin 2) (lane : Nat) : Chan :=
  let c := c.retireCsp lane
  { c with csp := upd c.csp i fun _ => { en := true, lane := BitVec.ofNat 6 lane, failed := false },
           cmdLane := upd (upd c.cmdLane (Fin.ofNat 20 (18 + i.val)) fun l => { l with role := 3 }) (Fin.ofNat 20 lane) fun l =>
             { l with role := 2 } }

/-- R286: the same at both ends. -/
def State.putCsp (s : State) (n : Ch) (i : Fin 2) (lane : Nat) : State :=
  let s := match (s.chan.get n).cspOf lane with
    | some j => s.mrwOwn n (0x64 + j.val) 0
    | none => s
  (s.mrwOwn n (0x64 + i.val) (BitVec.ofNat 8 (128 + lane))).updChan n (·.putCsp i lane)

/-- R307: the command spare that firmware has selected, in a hold of the command lanes. -/
def State.takeSelCmd (s : State) (n : Ch) : State :=
  match (s.chan.get n).selCmd with
  | none => s
  | some (i, lane) =>
    if s.fw.st == .restarting || (s.chan.get (s.map.server n)).repairHolds then s
    else
    let s := s.updChan n fun c => { c with selCmd := none }
    if ((s.chan.get n).csp.get i).en || ((s.chan.get n).cmdLane.get (Fin.ofNat 20 lane.val)).role != 0 then s
    else s.putCsp n i lane.val

/-- R304: in the urgent channel pause that the flow asked for, the narrowest command lane is replaced by a free CSP, or the
lack of one is reported. This rests while Priri restarts (R55), and while a repair holds a die of the channel in its mode (R237,
R283). -/
def State.cmdFlowApply (s : State) (n : Ch) : State :=
  let c := s.chan.get n
  if !c.cmdFlow || !c.cmdNow || s.fw.st == .restarting || (s.chan.get (s.map.server n)).repairHolds then s
  else
    let j := s.mgmt.fw.laneJobs.find? fun j => j.n == n && j.pc == none
    let s := s.updChan n fun c => { c with cmdFlow := false }
    match c.freeCsp, c.narrowest (j.map (·.lane)) with
    | some i, some lane =>
      let s := s.putCsp n i lane
      let bus := if lane < 10 then 36 else 37
      let s := (s.addRecord (recWord0 recLANE n ⟨0, 0, 0, 0, 0, 0⟩) (recWord1 0 (BitVec.ofNat 6 bus) (BitVec.ofNat 2 i.val))).2
      s.laneAnswer j stOK (BitVec.ofNat 8 i.val) false
    | _, _ => (s.raise (evLane n) 9 (laneDet 2 0) 0).laneAnswer j stNORESOURCE 0 false

/-- Results of one group come into force, and the selections written up to now (R307; log entry 65, DESIGN CHOICE). -/
def Chan.applyGroup (c : Chan) (p : Pc) : Chan :=
  c.updPc p fun g => { g with lanes := (g.newLanes.getD g.lanes).map (·.takeSel), newLanes := none, pause := .none, chPause := false }

/-- R125, R141: the entries of the pseudo-channel leave HOLD. -/
def Chan.unhold (c : Chan) (p : Pc) : Chan :=
  (c.updSt fun x => { x with tt := x.tt.map fun e => if e.st == .hold && e.loc.pcIx == p then { e with st := .wait } else e }).rehit

/-- R296, R298: the apply phase ends in every channel that the pause holds, and its pseudo-channels reopen. -/
def State.pauseEnd (s : State) (n : Ch) (p : Pc) : State :=
  let ps := (s.chan.get n).pausedWith p
  let whole := (s.chan.get n).pc.get p |>.chPause
  let chs := s.map.reach n
  if s.map.isFollower n || !(chs.all fun k => ps.all fun q => ((s.chan.get k).pc.get q).pause == .apply) then s
  else
    let s := chs.foldl (fun s k =>
      let s := s.updChan k fun c =>
        let c := ps.foldl (fun (c : Chan) q => c.applyGroup q) c
        if whole then { c with cmdLane := (c.newCmd.getD c.cmdLane).map (·.takeSel), newCmd := none } else c
      let s := ps.foldl (fun s q => s.switchSpare k q) s
      if whole then ((s.takeSelCmd k).cmdFlowApply k).updChan k fun c => { c with cmdNow := false } else s) s
    (s.updChan n fun c => ps.foldl (fun (c : Chan) q => c.unhold q) c).stir

def execPauseEnd (n : Ch) (pc : Pc) (s : State) : Host.Outcome State Fault Refusal := .next (s.pauseEnd n pc).watchAll

/-! ## Requalification (R302, R303) -/

/-- R302: the sweep of a lane of channel n has read every line, and none of its accesses is in its engine's table. -/
def State.sweptAll (s : State) (n : Ch) (p : Pc) (lane : Fin 36) : Bool :=
  let g := (s.chan.get n).pc.get p
  let e := s.map.server n
  g.requal == some lane && g.requalWait.isEmpty && decide (s.map.nrow * s.map.nsid * 256 ≤ g.requalNext) &&
    !(s.chan.get e).st.tt.any fun x => match x.purpose with
      | .requalRd fol q k => fol == (e != n) && q == p && k == lane
      | .requalWb => x.loc.pcIx == p
      | .host | .scrubRd | .scrubWb | .scrubInit | .init | .demandWb | .remapFill _ | .remapRelease _ | .repairRd _ | .repairWr _ => false

/-- R302: the sweep has ended: the mark ends, the spare is recorded. Firmware does not end it while it restarts (R55). -/
def State.requalSweepDone (s : State) (n : Ch) (p : Pc) (lane : Fin 36) : State :=
  let g := (s.chan.get n).pc.get p
  if !s.sweptAll n p lane || s.fw.st == .restarting then s
  else
    let spare := g.carrier lane.val
    let ends := spare.isSome || decide (4 ≤ (g.lanes.get (Fin.ofNat 38 lane.val)).goodPauses)
    let s := s.stir.updChan n fun c => c.updPc p fun g =>
      { g with requal := none, requalNext := 0, marks := if ends then g.marks &&& ~~~(BitVec.twoPow 36 lane.val) else g.marks }
    let s := match spare with
      | some i =>
        let s := if g.marks.getLsbD lane.val then s.raise (evLane n) 7 (laneDet p.val lane.val) (w32 i.val) else s
        (s.addRecord (recWord0 recLANE n ⟨BitVec.ofNat 1 p.val, 0, 0, 0, 0, 0⟩)
          (recWord1 0 (BitVec.ofNat 6 lane.val) (BitVec.ofNat 2 i.val))).2
      | none => s
    match s.laneJob n (some p) lane.val with
    | some j => (s.laneDone j stOK).dropLaneJob j
    | none => s

def execRequalSweepDone (n : Ch) (pc : Pc) (lane : Fin 36) (s : State) : Host.Outcome State Fault Refusal :=
  .next (s.requalSweepDone n pc lane)

end Sys2Proof.Machine
end

