-- ==== Sys2Proof/Machine/Recovery.lean ====
section
/-! DEFINITION. Command errors, engine recovery, lost channels and channel reset (chapter 16, R465 to R474). -/

namespace Sys2Proof.Machine

/-! ## Command-error recovery (R279, R465) -/

/-- R304: assertions of the last ms. -/
def recentMs (l : List Nat) (now : Nat) : List Nat := l.filter fun t => decide (now < t + 1000000)

/-- R472: an outstanding tag on a channel that is lost. -/
def TagRec.onCh (t : TagRec) (n : Ch) : Bool := t.ch == some n && !t.refused

/-- R84: the response of a tag is already on its way to the host. -/
def Hlm.sending (h : Hlm) (t : TagRec) : Bool := h.txq.any fun o => o.retire && o.port == t.port && o.tag == t.tag

/-- R472 step 3: a module answers the tags outstanding on a channel, but for those whose response is on its way (R84), and
drops what waits for it. -/
def State.dropForLost (n : Ch) (s : State) (m : Mod) : State :=
  let h := s.hlm.get m
  let owed := fun (t : TagRec) => t.onCh n && !h.sending t
  let s := (h.tags.filter owed).foldl (fun s t => s.tagFault m t n) s
  s.updHlm m fun h =>
    let gone := (h.ingress.filter (·.ch == n)).length
    let goneW := (h.posted.filter (·.ch == n)).length
    { h with tags := h.tags.map fun t => if owed t then { t with refused := true, idx := none } else t,
             halves := h.halves.filter fun o => !h.tags.any fun t => owed t && o.port == t.port && o.tag == t.tag,
             ingress := h.ingress.filter (·.ch != n), posted := h.posted.filter (·.ch != n),
             dueRead := h.dueRead + gone, dueWrite := h.dueWrite + goneW }

/-- R229: a channel's share of a pass stops, and the summary will say so. -/
def State.stopShare (s : State) (n : Ch) : State :=
  if (s.chan.get n).share then (s.updChan n fun c => { c with share := false }).updScrub fun b => { b with part := true } else s

/-- R111: a channel, and its partner in a joined pair, become holes. -/
def State.makeHole (s : State) (n : Ch) : State :=
  (s.map.reach n).foldl (fun s k =>
    if s.map.hole.getLsbD k.val then s
    else ((s.stopShare k).updMap fun m => { m with hole := m.hole ||| BitVec.twoPow 64 k.val }).raiseG 358 (BitVec.ofNat 24 k.val) 0) s

/-- Everything that a channel engine holds in transit. -/
def Chan.emptyEngine (c : Chan) : Chan :=
  ({ c with init := none } : Chan).updSt fun x =>
    { x with tt := [], lb := Vector.replicate 16 {}, respq := [], respqF := [], rsv := [], rsvEvs := [], notices := [],
             uncertain := [], mrq := [], unitFree := 0, recov := .none, wmode := Vector.replicate 2 false,
             wcount := Vector.replicate 2 0 }

/-- R393: the channels that a command of Exaux involves, by its word and window: REFRESH_FLOOR, TRACKER_POLICY, REMAP_INSTALL,
REMAP_RELEASE, PPR_SOFT, PPR_HARD, LANE_SPARE, TWINWING and CHANNEL_DISABLE. -/
def State.cmdChans (s : State) (k : Mb) (w : Word) : List Ch :=
  let v := w32 (s.winField k w 0 4)
  match (cmdOpcode w).toNat with
  | 0x20 => if argBits w 3 1 = 1 then allCh else [Fin.ofNat 64 (argBits w 4 6)]
  | 0x21 => if v.getLsbD 31 then allCh else [Fin.ofNat 64 v.toNat]
  | 0x30 =>
    let d := s.map.decode (BitVec.ofNat 40 (s.winField k w 0 8))
    if d.status = 0 then [d.chan] else []
  | 0x31 => [Fin.ofNat 64 (argBits w 4 6)]
  | 0x38 | 0x39 => [recChan v]
  | 0x40 => [Fin.ofNat 64 v.toNat]
  | 0x48 => [leader (Fin.ofNat 32 (argBits w 0 5)), follower (Fin.ofNat 32 (argBits w 0 5))]
  | 0x50 => [Fin.ofNat 64 (argBits w 0 6)]
  | _ => []

/-- R26, R366: the commands that work on a channel end with a status. -/
def State.endWork (s : State) (st : BitVec 4) (n : Ch) : State :=
  let s := ((s.abandonRequal n 0).abandonRequal n 1)
  let s := match (s.chan.get n).repair with
    | some r => (s.updChan n fun c => { c with repair := none }).answerTo r.by_ st 0
    | none => s
  let js := s.mgmt.fw.laneJobs.filter (·.n == n)
  let s := js.foldl (fun s j => if j.answered then s else s.answerTo (j.mb.map fun k => (k, j.tag)) st 0) s
  let rs := s.mgmt.fw.remapJobs.filter (·.n == n)
  let s := rs.foldl (fun s j => s.answerTo j.by_ st 0) s
  let ts := s.mgmt.fw.twinJobs.filter (·.c == pairOf n)
  let s := ts.foldl (fun s j => s.answerTo j.by_ st 0) s
  s.updFw fun f => { f with laneJobs := f.laneJobs.filter (·.n != n), remapJobs := f.remapJobs.filter (·.n != n),
                            twinJobs := f.twinJobs.filter (·.c != pairOf n), urgent := f.urgent.filter (·.n != n) }

/-- R393: the same, and those that firmware has taken and not yet started. -/
def State.endChanJobs (st : BitVec 4) (s : State) (n : Ch) : State :=
  let s := (List.finRange 24).foldl (fun s k => ((s.mb k).cmds.filter fun c =>
    !c.running && (s.cmdChans k c.word).contains n).foldl (fun s c => s.answer k c.tag st 0) s) s
  s.endWork st n

/-- What a reset or the loss of a channel leaves of its pauses and its lane monitor. -/
def LaneGroup.cut (g : LaneGroup) : LaneGroup :=
  { g with pause := .none, chPause := false, newLanes := none, fresh := 0, mon := [], identified := [], refusedMark := [] }
def Chan.endPauses (c : Chan) : Chan := { c with pc := c.pc.map LaneGroup.cut, newCmd := none, cmdNow := false }

/-- R472: the channel is lost, with what waits for a pause of it (R297) and the commands that work on it (R366: FAULT; log entry
66, DESIGN CHOICE). Of a joined pair both become holes, and the leader is the one recorded as lost, whichever of
the two failed (log entry 56, DESIGN CHOICE). -/
def State.loseChannel (s : State) (n : Ch) : State :=
  let n := s.map.server n
  let chs := s.map.reach n
  let s := s.makeHole n
  let s := s.updMap fun m => { m with lost := m.lost ||| BitVec.twoPow 64 n.val }
  let s := chs.foldl (fun s k => s.endWork stFAULT k) s
  let s := (chs.foldl (fun s k => s.updChan k fun c => c.emptyEngine.endPauses) s).enterSr n none
  allMod.foldl (State.dropForLost n) s

/-- R279: the core dies that have found the error count it: at least one, and which ones is free (log entry 4, DESIGN CHOICE). -/
def State.countParity (s : State) (n : Ch) : State :=
  let (j, s) := s.drawNat 4
  let (b, s) := s.drawBits 4
  let hit := fun (i : SidIx) => i.val == j || b.getLsbD i.val
  s.updChan n fun c =>
    { c with dies := Vector.ofFn fun i => if hit i then (c.dies.get i).parityError else c.dies.get i }

/-- R279, R465, R470: CAERR_n falls. -/
def State.caerrFall (s : State) (n : Ch) : State :=
  let now := s.now
  let s := s.updChan n fun c =>
    { c.updCnt fun k => { k with caerr := k.caerr + 1 } with caerrTimes := recentMs c.caerrTimes now ++ [now] }
  let s := if 2 ≤ (s.chan.get n).caerrTimes.length then s.startCmdFlow n else s
  let e := s.map.server n
  match (s.chan.get e).st.recov with
  | .none =>
    -- R470: a PREab of an engine recovery's step 3 has raised it
    if (s.chan.get e).st.step3.any fun t => decide (now ≤ t + 12) then s.loseChannel e
    else s.updChan e fun c => c.updSt fun x => { x with recov := .caerr now }
  | .caerr _ => s
  | .caerrWait f _ => s.updChan e fun c => c.updSt fun x => { x with recov := .caerr f }
  | .engine _ => s.loseChannel e

/-- R322: the fall is seen while the quad is on. -/
def State.caerrAssert (s : State) (n : Ch) : State := if s.quadOn n then (s.countParity n).caerrFall n else s

def execCaerrAssert (n : Ch) (s : State) : Host.Outcome State Fault Refusal := .next (s.caerrAssert n)

/-- R465: CAERR_n rises; the frames issued from 12 ns before its fall are uncertain. -/
def State.caerrDeassert (s : State) (n : Ch) : State :=
  let e := s.map.server n
  match (s.chan.get e).st.recov with
  | .caerr f =>
    let now := s.now
    s.updChan e fun c => c.updSt fun x =>
      { x with recov := .caerrWait f now, uncertain := x.hist.filter fun p => decide (f ≤ p.at_ + 12) }
  | .none | .caerrWait _ _ | .engine _ => s

def execCaerrDeassert (n : Ch) (s : State) : Host.Outcome State Fault Refusal := .next (s.caerrDeassert n)

/-- R465, R468: how long rows must be left before PREab. -/
def Timing.settle (t : Timing) : Nat := max t.tRAS (t.wl + 2 + t.tWR)

/-- An entry goes back to WAIT to be issued again; a fill gives its slot back. -/
def Chan.reissue (c : Chan) (e : Entry) : Chan :=
  let c := if e.st == .colrd && e.usesLb then c.lbDrop (Fin.ofNat 16 e.lb.toNat) else c
  c.updEntry e.idx fun x => { x with st := .wait, retryDue := false }

/-- R465: a write that has left COLWR and whose WR may not have been executed is issued again, from the data that its slot still
holds: as a plain write of its line, in its place of the age order. The copies of a repair and of a release keep what they have
written (log entry 75, DEDUCED). -/
def Chan.rewrite (c : Chan) (e : Entry) : Chan :=
  match e.purpose with
  | .repairWr _ | .remapRelease _ => c
  | .host | .scrubRd | .scrubWb | .scrubInit | .init | .demandWb | .requalRd _ _ _ | .requalWb | .remapFill _ | .repairRd _ =>
    if 256 ≤ c.st.tt.length then c
    else
      let x : Entry := { e with idx := c.freeIdx, kind := .mwr, st := .wait, purpose := .host, maint := true }
      let older := fun o : Entry => decide (o.age < x.age)
      c.updSt fun y => { y with tt := y.tt.takeWhile older ++ x :: y.tt.dropWhile older }

/-- R465 step 4: what a frame that may not have been executed leaves to do. -/
def Chan.redo (c : Chan) (p : Issued) : Chan :=
  let b := p.loc.bank
  match p.op with
  | .refpb | .refab =>
    let us := if p.op == .refab && !c.cfg.refAllBank then sidBanks b else [b]
    c.updRf fun r => us.foldl (fun r b =>
      let d := r.debt.get b + 1
      { r with debt := upd r.debt b fun _ => d, owed := if 1 ≤ d then upd r.owed b (p.tick :: ·) else r.owed }) r
  | .trf => c.updRf fun r => { r with trf := r.trf ++ [{ bank := b, row := p.loc.row, why := .drain, at_ := p.at_ }] }
  | .tmp =>
    c.updRf fun r =>
      if r.tmpSent.contains p.loc.sidIx then
        { r with tmpSent := r.tmpSent.erase p.loc.sidIx, tmpDue := r.tmpDue ++ [p.loc.sidIx] } else r
  | .mrw =>
    if p.addr = 0x6C ∨ p.addr = 0x6D then c
    else c.updSt fun x => { x with mrq := x.mrq ++ [{ sid := p.loc.sidIx, addr := p.addr, act := .inl p.data }] }
  | .mrr => c.updSt fun x => { x with mrq := x.mrq ++ [{ sid := p.loc.sidIx, addr := p.addr, act := .inr p.loc.pcIx }] }
  | .act | .pre | .preab | .pde | .pdx | .sre | .srx | .rd | .rda | .wr | .wra => c

/-- R283, R465: the MRWs and the ACT of a repair that may not have been executed: the sequence starts again at its guard, or
the repair mode is switched off again. -/
def Repair.redo (r : Repair) (p : Issued) : Repair :=
  let off := p.op == .mrw && p.addr == 0x6C && p.data == 0
  let on := (p.op == .mrw && (p.addr == 0x6C || p.addr == 0x6D) && !off) || (p.op == .act && p.loc.bank == r.loc.bank)
  if p.loc.sidIx != r.loc.sidIx then r
  else if off && decide (9 < r.phase) then { r with phase := 9 }
  else if on && decide (4 < r.phase) && decide (r.phase < 8) then { r with phase := 4 }
  else r

/-- R465: the wait of step 1 is over; steps 2 to 5. -/
def State.caerrRecoveryWaitDone (s : State) (n : Ch) : State :=
  let e := s.map.server n
  let c := s.chan.get e
  match c.st.recov with
  | .caerrWait f r =>
    let unc := c.st.uncertain
    let first := match unc with
      | p :: _ => p.at_
      | [] => f
    let s := ((s.advance (max (r + 2) (first + (s.tim e).settle))).preabAll e).mrwAll e 0x7C 0
    let s := s.updChan e fun c =>
      let c := (c.st.tt.filter fun x => (x.st == .colrd || x.st == .colwr) && decide (f ≤ x.colAt + 12)).foldl Chan.reissue c
      let c := (c.st.kept.filter fun x => decide (f ≤ x.1.colAt + 12)).foldl (fun c x => c.rewrite x.1) c
      let c := unc.foldl Chan.redo { c with repair := c.repair.map fun q => unc.foldl Repair.redo q }
      let c := c.updSt fun x =>
        { x with recov := .none, uncertain := [], kept := [],
                 lb := x.lb.map fun y => match y.wbAt with
                   | some t => if f ≤ t + 12 && y.line.isSome then { y with dirty := true, wb := true, wbAt := none } else y
                   | none => y }
      c.rehit
    s.joinTrip e
  | .none | .caerr _ | .engine _ => s

def execCaerrRecoveryWaitDone (n : Ch) (s : State) : Host.Outcome State Fault Refusal := .next (s.caerrRecoveryWaitDone n)

/-! ## Engine recovery (R467 to R470) -/

/-- R468 steps 1 and 2: the control logic of the scheduler is reset; what step 2 names is kept, but for the reservations. -/
def Chan.resetLogic (c : Chan) : Chan :=
  c.updSt fun x => { x with wmode := Vector.replicate 2 false, wcount := Vector.replicate 2 0, modeAt := Vector.replicate 2 none,
                            ptr := 3, deficit := Vector.replicate 16 0, readyAt := none, dueAt := none }

/-- R468 step 1, R470. -/
def State.startRecovery (s : State) (n : Ch) : State :=
  let now := s.now
  let c := s.chan.get n
  let again := match c.st.lastRecov with
    | none => false
    | some t => decide (now < t + 1000000000)
  if again then s.loseChannel n
  else s.updChan n fun c => ((c.noteRsv now .clear 0x1FF).resetLogic).updSt fun x => { x with recov := .engine now, lastRecov := some now }

/-- R467: 8 us after the latest command, or after `since`, the decision that first found what waits. -/
def State.watchdogAt (s : State) (n : Ch) (since : Option Nat) : Nat :=
  max (s.chan.get n).st.lastCmd (since.getD s.now) + 8000

/-- R467: the watchdog: a ready entry, or a refresh or TRF at its deadline, and no command for 8 us. -/
def State.schedulerWatchdog (s : State) (n : Ch) : State :=
  let c := s.chan.get n
  if !s.engineRuns n then s
  else
    let a := s.watchdogAt n c.st.readyAt
    let b := s.watchdogAt n c.st.dueAt
    match c.anyReady, c.anyDue s.map.nsid (s.actOpen n) with
    | false, false => s
    | true, false => (s.advance a).startRecovery n
    | false, true => (s.advance b).startRecovery n
    | true, true => (s.advance (min a b)).startRecovery n

def execSchedulerWatchdog (n : Ch) (s : State) : Host.Outcome State Fault Refusal := .next (s.schedulerWatchdog n)

/-- R467: a control register holds an encoding that its logic never produces; an engine without power holds none (R322, R479). -/
def State.illegalControlState (s : State) (n : Ch) : State :=
  if s.quadOn (s.map.server n) then s.startRecovery (s.map.server n) else s

def execIllegalControlState (n : Ch) (s : State) : Host.Outcome State Fault Refusal := .next (s.illegalControlState n)

/-- R468 steps 3 to 5: the PREabs go out once the wait from the reset of the logic is over, and issue resumes after the last of
them. -/
def State.engineRecoveryDone (s : State) (n : Ch) : State :=
  match (s.chan.get n).st.recov with
  | .engine t =>
    let s := (s.advance (t + (s.tim n).settle)).preabAll n
    let last := ((s.chan.get n).st.rowAt).getD s.now
    let s := s.advance (last + 1)
    let s := s.updChan n fun c =>
      let c := (c.st.tt.filter fun x => x.st == .colrd || x.st == .colwr || x.st == .hit).foldl Chan.reissue c
      (c.updSt fun x => { x with recov := .none, uncertain := [], step3 := some last }).rehit
    ((s.updFw fun f => { f with recNotes := f.recNotes ++ [n] }).rechain n).joinTrip n
  | .none | .caerr _ | .caerrWait _ _ => s

def execEngineRecoveryDone (n : Ch) (s : State) : Host.Outcome State Fault Refusal := .next (s.engineRecoveryDone n)

/-! ## Channel reset (R22, R474) -/

/-- R80: the low address word of an outstanding request. -/
def Hlm.auxOf (h : Hlm) (port : BitVec 4) (tag : BitVec 10) : Word :=
  match h.tags.find? fun t => t.port == port && t.tag == tag with
  | some t => t.aux
  | none => 0

/-- R474: every request of the table that awaits its response is answered with ERROR UNAVAIL. -/
def State.unavailEntries (s : State) (n : Ch) : State :=
  ((s.chan.get n).st.tt.filter fun e => !e.maint).foldl (fun s e =>
    let m := portMod e.gport
    let p := portLocal e.gport
    let h := s.hlm.get m
    let owed := h.tags.any fun t => t.port == p && t.tag == e.tag && t.ch == some n && !t.refused && !h.sending t
    if e.epoch == h.epoch && owed && (match e.kind with
        | .rd64 | .rd128 | .ldr | .stc | .amo => true
        | .hint | .wr64 | .wrp | .mrd | .mwr | .fenceW | .fenceAll | .cfgRd | .cfgWr | .srEnter => false) then
      s.updHlm m fun h =>
        { h with txq := h.txq ++ [{ outMsg opERROR p e.tag with status := errUNAVAIL, aux := h.auxOf p e.tag }],
                 halves := h.halves.filter fun o => !(o.port == p && o.tag == e.tag),
                 tags := h.tags.map fun t => if t.port == p && t.tag == e.tag && t.ch == some n then { t with idx := none, refused := true } else t }
    else s) s

/-- Counters that a channel, warm or cold reset clears (R152, R246, R270, R305). -/
def Chan.clearCounters (c : Chan) : Chan := { c with cnt := {}, st := { c.st with ueLoc := 0 } }

/-- R379, R474: a remap fill that a reset has cut: its entry holds no copy yet, the installation ends ABORTED, and the line, whose
stored data are kept, goes on being served by the core dies (log entry 77, DEDUCED). -/
def Chan.endFills (c : Chan) : Chan :=
  { c with remap := c.remap.map fun r => if r.st = .filling then {} else r }

/-- R48, R474: writes of an engine that have not been issued to the dies. -/
def Chan.unissued (c : Chan) : Nat :=
  c.st.tt.countP (fun e => (e.kind == .wr64 || e.kind == .wrp || e.kind == .mwr) && e.st != .colwr)
    + c.st.lb.toList.countP (·.dirty)

/-- R474: writes that cannot be issued are lost and counted in the log, in a firmware record, whose code firmware chooses
(R421; log entry 59, DESIGN CHOICE). -/
def State.writesLost (s : State) (n : Ch) : State :=
  let k := (s.chan.get n).unissued
  if k = 0 then s
  else
    let (code, s) := s.drawBits 16
    (s.queuePkt { type := 2, words := [code.setWidth 32, w32 k] }).logPacketWrite

/-- R474: a channel reset starts; one that finds a reset in progress is absorbed into it (R26). -/
def State.chanResetStart (s : State) (n : Ch) (by_ : Option (Mb × BitVec 2)) : State :=
  let e := s.map.server n
  if (s.chan.get e).inReset then s.updChan e fun c => { c with resetBy := c.resetBy ++ by_.toList }
  else
    let s := if (s.chan.get e).st.pwr == .active then s.flushChan e else s.writesLost e
    let s := ((s.map.reach e).foldl (State.endChanJobs stABORTED) (s.unavailEntries e)).stopShare e
    let s := s.drainTrackers e
    let s := s.enterSr e none
    (s.map.reach e).foldl (fun s k => s.updChan k fun c =>
      let told := c.st.notices
      let c := c.endFills.emptyEngine.clearCounters
      -- R473: the notices of entries found uncorrectable before the reset still reach the modules
      let c := c.updSt fun x => { x with hwm := Vector.replicate 16 {}, notices := told }
      { c.endPauses with inReset := true, resetBy := if k = e then by_.toList else [] }) s

/-- R289, R474: T3 and T7 have run. A channel whose T7 finds an uncorrectable word is trained again in full, whose outcome the next
CHANNEL_RESET_DONE brings; one that fails that training too is not served again (log entry 18, DEDUCED). -/
def State.channelResetDone (s : State) (n : Ch) (t7ok : Bool) : State :=
  let e := s.map.server n
  let c := s.chan.get e
  if !c.inReset || !s.quadOn e then s
  else if !t7ok && c.train != 1 then s.updChan e fun c => { c with train := 1 }
  else
    let s := ((s.map.reach e).foldl (fun s k => s.updChan k fun c =>
      { c with inReset := false, resetBy := [], train := if c.train = 1 then 2 else c.train }) s)
    -- R332: a trip keeps the dies in self-refresh until its end
    let s := if s.pwr.trip then s.joinTrip e else s.exitSr e
    let s := if t7ok then s
      else
        let s := s.updMap fun m => { m with trainFail := m.trainFail ||| BitVec.twoPow 64 e.val }
        ((s.updChan e fun c => { c with train := 3 }).raise (evLane e) 11 0 0).makeHole e
    c.resetBy.foldl (fun s x => s.answer x.1 x.2 (if t7ok then stOK else stFAULT) 0) s

def execChannelResetDone (n : Ch) (t7ok : Bool) (s : State) : Host.Outcome State Fault Refusal :=
  .next (s.channelResetDone n t7ok)

end Sys2Proof.Machine
end

