-- ==== Sys2Proof/Machine/Maint.lean ====
section
/-! DEFINITION. Scrub passes, remap fills, ends of repair sequences and Twinwing transitions (chapter 07, R226 to R245). -/

namespace Sys2Proof.Machine

/-! ## Scrub passes (R226 to R230) -/

/-- R227, R228: the codewords of the range that channel n visits. -/
def State.shareSize (s : State) (n : Ch) : Nat :=
  let b := s.mgmt.scrub
  (List.range (b.len / 64)).countP fun i =>
    let d := s.map.decode (BitVec.ofNat 40 (b.start + 64 * i))
    d.status == 0 && s.map.server d.chan == n && !d.half

/-- An access of a pass is in the table. -/
def Entry.isScrub (e : Entry) : Bool :=
  match e.purpose with
  | .scrubRd | .scrubWb | .scrubInit => true
  | .init | .host | .demandWb | .requalRd _ _ _ | .requalWb | .remapFill _ | .remapRelease _ | .repairRd _ | .repairWr _ => false

/-- The decode of the `i`th 64-byte line from an address. -/
def Map.lineAt (m : Map) (start i : Nat) : Dec := m.decode (BitVec.ofNat 40 (start + 64 * i))

/-- R227: the line in hand is the second half of its pair's line. -/
def Dec.cutFirst (d : Dec) : Bool := d.status == 0 && d.twin && d.half
/-- R227: the line in hand is the first half of its pair's line. -/
def Dec.cutLast (d : Dec) : Bool := d.status == 0 && d.twin && !d.half

/-- The arguments of a pass, as the range, mode, pace and pattern that it is asked with. -/
structure PassArgs where
  start : Nat
  len : Nat
  mode : Nat
  pace : Nat
  pattern : Nat

/-- R227, R377: a range, mode or pace that a pass does not take. -/
def State.passBad (s : State) (start len mode pace : Nat) : Bool :=
  start % 64 != 0 || decide (s.map.capacity ≤ start) || len == 0 || len % 64 != 0 || decide (3 ≤ mode) || decide (1048575 < pace)

/-- R228, R229: a channel that takes its share of the pass in hand. -/
def State.takesShare (s : State) (n : Ch) : Bool :=
  s.map.mapped.getLsbD n.val && !s.map.hole.getLsbD n.val && !s.map.isFollower n && !(s.chan.get n).inReset && decide (0 < s.shareSize n)

/-- R226 to R228: a pass starts in the channels of `on`, for a mailbox or for firmware; a half of a pair's line at an end of the range
takes the whole line. -/
def State.startPass (s : State) (a : PassArgs) (mb : Option Mb) (ident : Ident) (base : Nat) (on : Ch → Bool) : State :=
  let cap := s.map.capacity
  let stop := min (a.start + a.len) cap
  let start' := if (s.map.lineAt a.start 0).cutFirst then a.start - 64 else a.start
  let stop' := if (s.map.lineAt (stop - 64) 0).cutLast then stop + 64 else stop
  let now := s.now
  let lines := (List.range ((stop' - start') / 64)).map (s.map.lineAt start')
  let s := s.updScrub fun _ =>
    { running := true, held := true, mb := mb, ident := ident, base := base, mode := BitVec.ofNat 2 a.mode,
      start := start', len := stop' - start', pace := a.pace, pattern := BitVec.ofNat 64 a.pattern,
      clipped := decide (cap < a.start + a.len), twinSeen := lines.any fun d => d.status == 0 && d.twin,
      skipped := lines.countP fun d => d.status == 2, startAt := now }
  let part := allCh.any fun c => (s.chan.get c).inReset && decide (0 < s.shareSize c)
  let s := s.updScrub fun b => { b with part := part }
  s.mapChan fun c x => { x with share := on c && s.takesShare c, visited := [] }

/-- R226: the line that an Initialise pass writes. -/
def Scrub.line (b : Scrub) (twin : Bool) : PairLine :=
  let d : PairLine := (b.pattern.replicate 16).setWidth 1024
  if twin then d else (d.setWidth 512).setWidth 1024

/-- R226, R228: a channel visits one more line of its share, at most one for each pace interval. -/
def State.scrubPaceTick (s : State) (n : Ch) (l : Loc) : State :=
  let c := s.chan.get n
  let b := s.mgmt.scrub
  let a := s.map.hostAddr n l
  if !c.share || decide (s.map.nrow ≤ l.row.toNat) || decide (s.map.nsid ≤ l.sid.toNat) || decide (a < b.start)
      || decide (b.start + b.len ≤ a) || c.visited.contains l || !c.canTake s.now c.cfg.maintCls then s
  else
    let s := if c.visited.isEmpty then s else s.advance (c.lastPace + b.pace)
    let now := s.now
    let s := s.updChan n fun c => { c with visited := l :: c.visited, lastPace := now }
    if b.mode = 2 then s.addMaint n .mwr l .scrubInit (b.line (s.map.isJoined n)) false
    else s.addMaint n .mrd l .scrubRd 0 false

def execScrubPaceTick (n : Ch) (loc : Loc) (s : State) : Host.Outcome State Fault Refusal := .next (s.scrubPaceTick n loc)

/-- R229: every line of the share has been visited and every access of it is done. -/
def State.scrubShareDone (s : State) (n : Ch) : State :=
  let c := s.chan.get n
  if c.share && !c.st.tt.any Entry.isScrub && decide (s.shareSize n ≤ c.visited.length) then
    s.updChan n fun c => { c with share := false }
  else s

def execScrubShareDone (n : Ch) (s : State) : Host.Outcome State Fault Refusal := .next (s.scrubShareDone n)

/-- Write `n` bytes into a mailbox window. -/
def State.winPutN (s : State) (k : Mb) (a v n : Nat) : State := s.updMb k fun b => { b with win := memWriteN b.win a v n }

/-- A count that saturates at `n` bytes. -/
def satBytes (v n : Nat) : Nat := min v (256 ^ n - 1)

/-- A histogram in its window. -/
def State.putHist (s : State) (k : Mb) (base : Nat) (h : List (Nat × Nat)) (size : Nat) : State :=
  let s := s.winPutN k base 0 (4 * size)
  h.foldl (fun s x => if x.1 < size then s.winPutN k (base + 4 * x.1) (satBytes x.2 4) 4 else s) s

/-- R230: the scrub summary. -/
def State.putSummary (s : State) (k : Mb) : State :=
  let b := s.mgmt.scrub
  let p := b.base
  let init := b.mode == 2
  let flags := fld 24 1 + fld 7 (b2n b.twinSeen) + fld 6 (b2n b.clipped) + fld 5 (b2n b.aborted) + fld 4 (b2n b.part)
    + fld 2 b.mode.toNat
  let s := s.winPutN k p flags 4
  let s := s.winPutN k (p + 4) (satBytes b.erasureOnly 4) 4
  let s := s.winPutN k (p + 8) b.start 8
  let s := s.winPutN k (p + 0x10) (satBytes b.scanned 8) 8
  let s := s.winPutN k (p + 0x18) (satBytes b.skipped 8) 8
  let s := s.winPutN k (p + 0x20) (if init then 0 else satBytes b.correctable 4) 4
  let s := s.winPutN k (p + 0x24) (if init then 0 else satBytes b.uncorrectable 4) 4
  let s := s.winPutN k (p + 0x28) (if init then 2 ^ 64 - 1 else b.firstUe.getD (2 ^ 64 - 1)) 8
  let s := s.winPutN k (p + 0x30) (if init then 2 ^ 64 - 1 else b.lastUe.getD (2 ^ 64 - 1)) 8
  let s := s.winPutN k (p + 0x38) (satBytes (s.now - b.startAt) 8) 8
  let s := s.putHist k (p + 0x40) (if init then [] else b.hist72) 72
  s.putHist k (p + 0x160) (if init then [] else b.hist144) 144

/-- R230, R365, R377, R378: the pass ends; the engine stays held until the notice is taken. While Priri restarts
its end waits (R55). -/
def State.scrubPassEnd (s : State) : State :=
  let b := s.mgmt.scrub
  if !b.running || s.fw.st == .restarting || allCh.any (fun n => (s.chan.get n).share || (s.chan.get n).st.tt.any Entry.isScrub) then s
  else
    let s := s.mapChan fun _ c => { c with visited := [] }
    let s := match b.mb with
      | some k => (s.putSummary k).notice k 1 (if b.aborted then stABORTED else stOK)
      | none => s
    (s.updScrub fun b => { b with running := false, held := b.mb.isSome }).stir

def execScrubPassEnd (s : State) : Host.Outcome State Fault Refusal := .next s.scrubPassEnd

/-! ## Remap fills (R232, R379) -/

def remapResult (i : Fin 16) (already unrecorded : Bool) (st : RemapSt) : BitVec 8 :=
  BitVec.ofNat 4 i.val ++ bit1 already ++ bit1 unrecorded ++ BitVec.ofNat 2 st.code

/-- R366, R379: the fill has ended: the entry's record is reserved, and the command that installed it is answered. -/
def State.installDone (s : State) (n : Ch) (i : Fin 16) (st : RemapSt) : State :=
  match s.mgmt.fw.remapJobs.find? fun j => j.n == n && j.i == i && !j.release with
  | none => s
  | some j =>
    let l := ((s.chan.get n).remap.get i).loc
    let (lost, s) := s.addRecord (recWord0 recREMAP n l) (recWord1 l.col 0 0)
    (s.answerTo j.by_ stOK (remapResult i false lost st)).updFw fun f =>
      { f with remapJobs := f.remapJobs.filter (· != j) }

/-- R232: the corrected data of the line are in the spare line, or the entry is POISONED; a fill is a store (R210). -/
def State.remapFillDone (s : State) (n : Ch) (i : Fin 16) : State :=
  let c := s.chan.get n
  match c.st.tt.find? fun e => e.purpose == .remapFill i && e.st == .sram && e.kind == .mwr with
  | none => s
  | some e =>
    let now := s.now
    let st : RemapSt := if e.poison then .poisoned else .live
    let s := s.updChan n fun c =>
      let c := (c.decideRsv now e.idx !e.poison).finish now e
      let c := match c.lbOf e.loc with
        | some j => c.lbDrop j
        | none => c
      { c with remap := upd c.remap i fun r => { r with st := st, data := if e.poison then 0 else e.data } }
    (s.rechain n).installDone n i st

def execRemapFillDone (n : Ch) (i : Fin 16) (s : State) : Host.Outcome State Fault Refusal := .next (s.remapFillDone n i)

/-! ## What a command or firmware starts (R232, R233, R235, R247, R365) -/

/-- R375, R376: a single channel that is unmapped. -/
def State.unmapped (s : State) (n : Ch) : Bool := !s.map.mapped.getLsbD n.val

def Map.inTrans (m : Map) (n : Ch) : Bool := m.trans.getLsbD (pairOf n).val

/-- R365: the repair sequencer of a channel, or of its pair, is held. -/
def State.seqHeld (s : State) (n : Ch) : Bool :=
  let e := s.map.server n
  (s.chan.get e).repair.isSome || s.fw.remapJobs.any fun j => s.map.server j.n == e

/-- R122, R232, R233: the work of a remap entry starts, on a line: its access enters the table at once, or when there is room.
`by_` is the command's sender, none for firmware. -/
def State.remapStart (s : State) (n : Ch) (i : Fin 16) (l : Loc) (release : Bool) (by_ : Option (Mb × BitVec 2)) : State :=
  (s.updFw fun f =>
    { f with remapJobs := f.remapJobs ++ [{ n := n, i := i, loc := l, by_ := by_, release := release, waits := true }] }).feedRemap n

/-- A location word: its channel and place. -/
def locOf (v : Word) : Ch × Loc := (recChan v, recLoc v 0)

/-- R381: outside the geometry, or in an unmapped channel. -/
def State.locBad (s : State) (v : Word) : Bool :=
  let (n, l) := locOf v
  v.extractLsb' 27 5 != 0 || decide (s.map.nrow ≤ l.row.toNat) || decide (s.map.nsid ≤ l.sid.toNat) || s.unmapped n

/-- R236, R281: every die that the repair reaches has a resource left. -/
def State.resLeft (s : State) (n : Ch) (l : Loc) (hard : Bool) : Bool :=
  (s.map.reach (s.map.server n)).all fun k =>
    decide (0 < ((s.chan.get k).dies.get l.sidIx).left hard l)

/-- R235, R237: the repair sequencer starts, for a command or for firmware. -/
def State.repairStart (s : State) (n : Ch) (l : Loc) (hard : Bool) (by_ : Option (Mb × BitVec 2)) : State :=
  let now := s.now
  s.updChan (s.map.server n) fun c =>
    { c with repair := some { hard := hard, loc := l, phase := 0, nextRd := 0, done := 0, startAt := now,
                              buf := List.replicate 16 (0, false), by_ := by_ } }

/-- The channel is a hole, in a transition or in reset. -/
def State.notServing (s : State) (n : Ch) : Bool :=
  s.map.hole.getLsbD n.val || s.map.inTrans n || (s.chan.get (s.map.server n)).inReset

/-! ## Repair sequences (R235, R237, R258, R283) -/

/-- The duration of the sequence, ns: of the pair, the longer. -/
def State.seqTime (s : State) (n : Ch) (r : Repair) : Nat :=
  ((s.map.reach n).map fun k =>
    let d := (s.chan.get k).dies.get r.loc.sidIx
    if r.hard then d.tHPPR * 1000000 else d.tSPPR).foldl max 0

/-- R258: after a hard sequence the debts of its pseudo-channel and SID are 0. -/
def Refresh.clearSid (r : Refresh) (b : BankIx) : Refresh :=
  (sidBanks b).foldl (fun r k => { r with debt := upd r.debt k fun _ => 0, owed := upd r.owed k fun _ => [] }) r

/-- R381: the sequencer of a repair fails: the sequence stops, the repair mode ends, and what had been read is written back. -/
def Repair.fail (r : Repair) : Repair :=
  let r := { r with failed := true }
  if r.phase = 4 then { r with phase := 3 }
  else if r.phase = 5 ∨ r.phase = 6 then { r with phase := 9, nextRd := 0, done := 0 }
  else if r.phase = 7 then { r with phase := 8, nextRd := 0, done := 0 }
  else r

def State.repairSeqDone (s : State) (x : SeqEnd) (hard : Bool) : State :=
  let n := x.n
  match (s.chan.get n).repair with
  | none => s
  | some r =>
    if r.hard ≠ hard ∨ r.failed = true then s
    else if !x.ok then
      let s := s.updChan n fun c => { c with repair := some r.fail }
      if hard && r.phase == 7 then s.updChan n fun c => c.updRf fun x => x.clearSid r.loc.bank else s
    else if r.phase ≠ 7 then s
    else
      let s := s.advance (r.startAt + s.seqTime n r)
      let s := s.updChan n fun c => { c with repair := some { r with phase := 8, nextRd := 0, done := 0 } }
      if hard then s.updChan n fun c => c.updRf fun x => x.clearSid r.loc.bank else s

def execSoftRepairSequenceDone (x : SeqEnd) (s : State) : Host.Outcome State Fault Refusal := .next (s.repairSeqDone x false)

def execHardRepairSequenceDone (x : SeqEnd) (s : State) : Host.Outcome State Fault Refusal := .next (s.repairSeqDone x true)

/-! ## Twinwing (R109, R244, R245, R269) -/

/-- R244 step 3, on entry: one pair entry for each location that either channel names, the leader's in their places. -/
def pairRemap (a b : Vector Remap 16) : Vector Remap 16 :=
  let mk := fun (r : Remap) => ({ st := .poisoned, loc := r.loc, pair := true, data := 0 } : Remap)
  let own := a.map fun r => if r.st = .free then ({} : Remap) else mk r
  b.toList.foldl (fun (v : Vector Remap 16) r =>
    if r.st = .free ∨ v.toList.any (fun x => x.st != .free && x.loc == r.loc) then v
    else
      match (List.finRange 16).find? fun i => (v.get i).st == .free with
      | some i => upd v i fun _ => mk r
      | none => v) own

/-- R244 step 3, on exit: one entry in each channel. -/
def splitRemap (a : Vector Remap 16) : Vector Remap 16 :=
  a.map fun r => if r.st = .free then {} else { st := .poisoned, loc := r.loc, pair := false, data := 0 }

/-- R244 step 2, R265: reservations, slots, maintenance entries and trackers of a channel are cleared. -/
def Chan.endMode (c : Chan) : Chan := c.clearTrackers.emptyEngine.closeAll

/-- Two histories of issued commands, in the order of time; those of the second list have been driven by the other PHY. -/
def mergeHist (a b : List Issued) : List Issued :=
  let put := fun (l : List Issued) (p : Issued) =>
    l.takeWhile (fun q => decide (q.at_ ≤ p.at_)) ++ p :: l.dropWhile fun q => decide (q.at_ ≤ p.at_)
  (b.map fun p => { p with own := false }).foldl put a

def laterOf (a b : Option Nat) : Option Nat := match a, b with
  | none, x => x
  | x, none => x
  | some x, some y => some (max x y)

/-- R39, R115, R117: from the entry on, what either channel has issued binds both. -/
def ChanSt.joinBuses (x y : ChanSt) : ChanSt :=
  { x with hist := mergeHist x.hist y.hist, rowAt := laterOf x.rowAt y.rowAt, colAt := laterOf x.colAt y.colAt,
           lastCmd := max x.lastCmd y.lastCmd }

/-- R269: the larger debts of the two channels. -/
def Refresh.joinDebts (a b : Refresh) : Refresh :=
  { a with debt := Vector.ofFn fun i => max (a.debt.get i) (b.debt.get i),
           owed := Vector.ofFn fun i => if a.debt.get i < b.debt.get i then b.owed.get i else a.owed.get i }

/-- R269: the follower's engine holds no refresh state of its own. -/
def Refresh.idle (r : Refresh) : Refresh :=
  { r with debt := Vector.replicate 128 0, owed := Vector.replicate 128 [], trf := [], tmpDue := [], tmpSent := [] }

/-- R218, R244 step 4: marks beyond the limit of the new mode are dropped; which ones is free. -/
def State.dropMarks (s : State) (n : Ch) (p : Pc) : Nat → State
  | 0 => s
  | k + 1 =>
    let g := (s.chan.get n).pc.get p
    if g.nmark ≤ 4 then s
    else
      let ls := (List.range 36).filter g.marks.getLsbD
      let (j, s) := s.drawNat ls.length
      let lane := ls.getD j 0
      let s := s.updChan n fun c => c.updPc p fun g => { g with marks := g.marks &&& ~~~(BitVec.twoPow 36 lane) }
      (s.raise (evLane n) 0xA (laneDet p.val lane) 0).dropMarks n p k

/-- R244 step 4, for an exit. -/
def State.trimMarks (s : State) (n : Ch) : State := (s.dropMarks n 0 36).dropMarks n 1 36

/-- R144: after a reset every bank is closed, with its index at tinit. -/
def ChanCfg.banks (f : ChanCfg) : Vector BankSt 128 := Vector.replicate 128 { ladder := f.tinit.toNat }

/-- R244 steps 2 to 4. -/
def State.changeMode (s : State) (c : PairIx) (entry : Bool) : State :=
  let a := leader c
  let b := follower c
  let s := (((s.abandonRequal a 0).abandonRequal a 1).abandonRequal b 0).abandonRequal b 1
  let s := if entry then (s.closeFirst a).closeFirst b else s.closeFirst a
  let s := (s.updChan a Chan.endMode).updChan b Chan.endMode
  let x := s.chan.get a
  let y := s.chan.get b
  if entry then
    let s := s.updChan a fun u =>
      { u with remap := pairRemap x.remap y.remap, rf := x.rf.joinDebts y.rf, st := u.st.joinBuses y.st }
    let s := s.updChan b fun u => { u with remap := Vector.replicate 16 {}, rf := u.rf.idle, st := u.st.joinBuses x.st }
    s.updMap fun m => { m with joined := m.joined ||| BitVec.twoPow 32 c.val }
  else
    let s := s.updChan a fun u => { u with remap := splitRemap x.remap }
    let s := s.updChan b fun u =>
      { u with remap := splitRemap x.remap,
               st := { u.st with banks := u.cfg.banks },
               rf := { u.rf with debt := x.rf.debt, owed := x.rf.owed, mult := x.rf.mult, tickFrom := x.rf.tickFrom } }
    let s := s.updMap fun m => { m with joined := m.joined &&& ~~~(BitVec.twoPow 32 c.val) }
    (s.trimMarks a).trimMarks b

/-- R244 step 1: every request that passed the decode earlier has completed; a pause of either channel ends first, since the pair
takes its pauses together (R39, R298). -/
def State.pairIdle (s : State) (c : PairIx) : Bool :=
  let mine := fun (n : Ch) => n == leader c || n == follower c
  allMod.all (fun m => let h := s.hlm.get m; (h.ingress ++ h.posted).all fun r => !mine r.ch)
    && ([leader c, follower c].all fun n => (s.chan.get n).st.tt.all (·.maint) && (s.chan.get n).repair.isNone
      && !(s.chan.get n).offline 0 && !(s.chan.get n).offline 1)
    && s.mgmt.fw.remapJobs.all fun j => !mine j.n

/-- R50, R244 step 5, R431 B12: the initialisation of a channel starts. -/
def State.startInit (s : State) (n : Ch) : State := s.updChan n fun c => { c with init := some 0 }

/-- R109, R244 steps 1 to 4, and the start of step 5. A channel of the pair that has become a hole since the command was accepted stays one: the
pair is joined with it (R111; log entry 56, DESIGN CHOICE). -/
def State.twinBegin (s : State) (c : PairIx) : State :=
  match s.mgmt.fw.twinJobs.find? (·.c == c) with
  | none => s
  | some j =>
    if s.map.trans.getLsbD c.val || !s.pairIdle c then s
    else
      let s := (s.updMap fun m => { m with trans := m.trans ||| BitVec.twoPow 32 c.val }).changeMode c j.entry
      ([leader c, follower c].filter fun n => !s.map.isFollower n).foldl State.startInit s

def execTwinwingTransitionBegin (c : PairIx) (s : State) : Host.Outcome State Fault Refusal := .next (s.twinBegin c)

/-- R50, R122, R244 step 5, R431 B12: the initialisation of a channel, if any, has written its last codeword: SCHEDULER_CC has fed every
MWR to the table (log entry 60, DESIGN CHOICE), and none is left there. -/
def State.initDone (s : State) (n : Ch) : Bool :=
  let c := s.chan.get n
  match c.init with
  | none => true
  | some j => decide (s.map.nrow * s.map.nsid * 512 ≤ j) && c.st.tt.all (·.purpose != .init)

/-- An initialisation ends. -/
def Chan.endInit (c : Chan) : Chan :=
  { c.updSt fun x => { x with tt := x.tt.filter (·.purpose != .init) } with init := none }

/-- Every line of a channel holds zeros with valid check symbols, as the MWRs of its initialisation have left it; a transition that
a warm reset meets is completed by this alone (log entry 32, DEDUCED). -/
def State.zeroLines (s : State) (n : Ch) : State :=
  { s with dram := s.dram.filter fun x => x.1 / 64 / 2 ^ 25 != n.val,
           poisonLines := s.poisonLines.filter fun k => k / 2 ^ 25 != n.val }

/-- The end of the initialisation of a channel by its own engine. -/
def State.zeroChan (s : State) (n : Ch) : State := (s.zeroLines n).updChan n Chan.endInit

/-- R244 step 5 and R234: a remap line is written with zeros and becomes LIVE. -/
def Chan.zeroRemap (c : Chan) : Chan :=
  { c with remap := c.remap.map fun r => if r.st = .free then r else { r with st := .live, data := 0 } }

/-- R244 steps 5 and 6. -/
def State.twinEnd (s : State) (c : PairIx) : State :=
  if !s.map.trans.getLsbD c.val then s
  else
    let s := (s.zeroLines (leader c)).zeroLines (follower c)
    let s := (s.updChan (leader c) fun x => x.endInit.zeroRemap).updChan (follower c) fun x => x.endInit.zeroRemap
    let s := s.updMap fun m => { m with trans := m.trans &&& ~~~(BitVec.twoPow 32 c.val) }
    let v := s.map.joined.getLsbD c.val
    let s := s.raiseG 357 (BitVec.ofNat 24 (c.val + 256 * b2n v)) 0
    match s.mgmt.fw.twinJobs.find? (·.c == c) with
    | none => s.stir
    | some j => (s.stir.answerTo j.by_ stOK 0).updFw fun f => { f with twinJobs := f.twinJobs.filter (·.c != c) }

/-- R244: the transition ends, once the engines have written their last codeword. -/
def State.twinDone (s : State) (c : PairIx) : State :=
  if s.initDone (leader c) && s.initDone (follower c) then s.twinEnd c else s

def execTwinwingTransitionDone (c : PairIx) (s : State) : Host.Outcome State Fault Refusal := .next (s.twinDone c)

end Sys2Proof.Machine
end

