-- ==== Sys2Proof/Machine/Reset.lean ====
section
/-! DEFINITION. Warm reset and Priri restart (R22 to R26, R55, R394, R434): what they reach and what survives. -/

namespace Sys2Proof.Machine

/-- R413 EV349: a change of GLB_FW_STATUS.state. -/
def State.setFwSt (s : State) (x : FwState) : State :=
  if s.fw.st = x then s else (s.updFw fun f => { f with st := x }).raiseG 349 (BitVec.ofNat 24 x.code) 0

/-! ## Start of a warm reset (R434, R26, R435) -/

/-- R440: a delivery in progress is discarded. -/
def Boot.cutDelivery (b : Boot) : Boot :=
  { b with stream := [], done := 0, deliverer := none, verifying := false,
           ph := if b.ph = .cold 10 then .cold 9 else b.ph }

/-- R434: a warm reset starts, on a block that has finished its boot; during a boot it is absorbed (R26, R435), but for a
delivery, which it discards (R440). Every link ends and its tags are void (R84), and the channel resets in progress are
superseded (R26). `kind` is GLB_RST_STATUS.last. -/
def State.startWarm (s : State) (kind : BitVec 3) : State :=
  match s.boot.ph with
  | .up =>
    let nsid := s.map.nsid
    let kept := BitVec.ofNat 64 ((s.liveCh.map fun n => 2 ^ n.val).sum)
    let s := s.updBoot fun b => { b.cutDelivery with ph := .warm 1, w1Done := false, last := kind, warmCnt := satInc b.warmCnt }
    let s := s.mapChan fun _ c => { c with inReset := false, resetBy := [] }
    (s.mapHlm fun _ h => h.linkEnd).updPwr fun p => { p with keptCh := kept, keptSid := nsid }
  | .cold _ | .warm _ => if s.boot.stageOpen then s.updBoot Boot.cutDelivery else s
  | .off => s

/-! ## W1 (R23, R199, R265, R434) -/

/-- R199: a posted write that has had no WACK is performed whole or lost whole. -/
def State.performPosted (m : Mod) (s : State) (r : Rq) : State :=
  let (b, s) := s.drawBits 1
  let c := s.chan.get r.ch
  if b = 1 ∧ !s.map.hole.getLsbD r.ch.val then s.forceWrite r.ch (r.entry c.freeIdx m (s.hlm.get m).epoch s.now) else s

/-- W1: transitions of pairs end, acknowledged writes and dirty slots reach the core dies, every tracker entry receives its
TRF, PREab and SRE; no write is left in a module. -/
def State.w1 (s : State) : State :=
  let s := (List.finRange 32).foldl State.twinEnd s
  let s := allCh.foldl (fun s n => if s.map.mapped.getLsbD n.val && !s.map.lost.getLsbD n.val && !s.map.isFollower n
    then s.flushChan n else s) s
  let s := allMod.foldl (fun s m => (s.hlm.get m).posted.foldl (State.performPosted m) s) s
  let s := s.mapHlm fun _ h => { h with posted := [] }
  let mapped := s.map.mapped
  let s := (allCh.filter fun n => mapped.getLsbD n.val && !s.map.isFollower n).foldl (fun s n => s.drainTrackers n) s
  (allCh.filter fun n => mapped.getLsbD n.val).foldl (fun s n => s.enterSr n none) s

/-! ## What a warm reset leaves of each unit (R41, R434) -/

/-- R41: the TSV PHY keeps its lanes and marks, the selections written and not yet applied included. -/
def LaneGroup.warmReset (g : LaneGroup) : LaneGroup :=
  { lanes := g.lanes, spares := g.spares, marks := g.marks, sel := g.sel, align := g.align }

/-- R41: configuration, timing, lanes, marks, remap entries and the die settings are kept; and when the engine last recovered, for a
second recovery within 1 s is not covered (R470). -/
def Chan.warmReset (c : Chan) (trip : Bool) : Chan :=
  { cfg := c.cfg, st := { pwr := c.st.pwr, tripHold := trip, banks := c.cfg.banks, lastRecov := c.st.lastRecov }, tim := c.tim, remap := c.endFills.remap,
    pc := c.pc.map LaneGroup.warmReset, cmdLane := c.cmdLane, csp := c.csp, train := c.train, laneIdx := c.laneIdx,
    dies := c.dies, zrstN := c.zrstN, selCmd := c.selCmd }

/-- R41, R98: host-written settings are kept; links go down. -/
def Hlm.warmReset (h : Hlm) : Hlm :=
  { link := if h.usable then .down else .unusable, retryThresh := h.retryThresh, maxRate := h.maxRate,
    refuseThresh := h.refuseThresh, classOvh := h.classOvh, usable := h.usable, epoch := h.epoch + 1 }

/-- R41, R164: port settings are kept, in force and pending; the buckets are full. -/
def Port.warmReset (p : Port) : Port :=
  { cls := p.cls, en := p.en, chgMode := p.chgMode, pend := p.pend, force := p.force,
    tokC := 1000 * p.force.cbs.toNat, tokP := 1000 * p.force.pbs.toNat }

/-- The map of a warm boot before it is computed again: settings, joined pairs, and the reasons for being unmapped. -/
def Map.warmReset (m : Map) : Map :=
  { gran := m.gran, xorCh := m.xorCh, xorBank := m.xorBank, joined := m.joined, lost := m.lost, volDis := m.volDis,
    trainFail := m.trainFail, bistFail := m.bistFail }

/-- R446, R410, R484: the fuse controller; shadows and the alarm are in AON. -/
def Fuses.warmReset (f : Fuses) : Fuses :=
  { words := f.words, ackHigh := f.req || f.ackHigh, trims := f.trims, repairs := f.repairs,
    alarm := f.alarm, shadows := f.shadows }

/-- R438, R441: the image and its retained header; the refresh floors that CHn_REF_CTRL keeps in force (log entry 19, DEDUCED). -/
def Fw.warmReset (f : Fw) : Fw :=
  { hostFloor := f.hostFloor, modelFloor := f.modelFloor, running := f.running, versionFloor := f.versionFloor,
    protLen := f.protLen, protDigest := f.protDigest, sram := f.sram }

def Mgmt.warmReset (g : Mgmt) : Mgmt := { fw := g.fw.warmReset, fuse := g.fuse.warmReset }

/-- AON is kept; Grehielm is in Imago, whatever state the reset found it in. -/
def Power.warmReset (p : Power) : Power :=
  { p with state := .imago, from_ := .imago, ph := .none, bySr := false, tripPend := false, wakePend := none,
           mgmtWake := false, lossSeq := none, lossHold := false, eye := { p.eye with inVisit := false } }

/-- W2: every domain but AON is reset. -/
def State.w2 (s : State) : State :=
  let trip := s.pwr.trip
  let s := ((s.mapChan fun _ c => c.warmReset trip).mapHlm fun _ h => h.warmReset).mapPort fun _ p => p.warmReset
  let s := (s.updMap Map.warmReset).updMgmt Mgmt.warmReset
  let s := (s.updPwr Power.warmReset).updClk fun k => { k with timeBase := 0, lastRefill := 0, rate := 0 }
  s.updBoot fun b => { b with stageOpen := false, deliverer := none, stream := [], done := 0, verifying := false, readAt := 0 }

/-! ## Priri restart (R22, R25, R55, R394) -/

/-- R387, R394: the word being programmed completes and the command has no answer left to give; other commands of the
fuse controller stop, but a lock that is being blown goes on. -/
def Fuses.cut (f : Fuses) : Fuses :=
  match f.cmd with
  | none => f
  | some c =>
    if c.op = 0x5A ∧ !c.progs.isEmpty then { f with cmd := some { c with count := c.done + 1, by_ := none } }
    else if c.op = 0x5B ∨ c.op = 0 then { f with cmd := some { c with by_ := if c.op = 0 then c.by_ else none } }
    else { f with cmd := none }

/-- The jobs of hardware go on, without a command to answer. -/
def Fw.cut (f : Fw) : Fw :=
  { f with staged := none, waiting := false, resetAsks := [], resetAt := none,
           laneJobs := f.laneJobs.map fun j => { j with answered := true },
           twinJobs := f.twinJobs.map fun j => { j with by_ := none },
           remapJobs := f.remapJobs.map fun j => { j with by_ := none } }

def Chan.cut (c : Chan) : Chan :=
  { c with repair := c.repair.map fun r => { r with by_ := none }, resetBy := [] }

/-- R26: a reset of wider reach than a Priri restart is in progress: a cold or warm boot, but not its image delivery
(R440), a channel reset or a module link reset (log entry 54, DEDUCED). -/
def State.widerReset (s : State) : Bool :=
  (!s.boot.stageOpen && match s.boot.ph with
    | .off | .cold _ | .warm _ => true
    | .up => false)
  || allMod.any (fun m => (s.hlm.get m).link == .reset) || allCh.any fun n => (s.chan.get n).inReset

/-- A Priri restart starts: `why` is detail A of EV348. A restart that finds another reset in progress is absorbed (R26). -/
def State.pririRestart (s : State) (why : BitVec 24) : State :=
  if !s.mgmtOn || s.fw.st == .restarting || s.widerReset then s
  else
    let s := s.updFw fun f => { f.cut with restarts := satInc f.restarts, restartWhy := why }
    let s := s.setFwSt .restarting
    let s := s.raiseG 348 why s.fw.status
    let s := s.closeOpen true
    let s := (List.finRange 24).foldl State.releaseWindow s
    let s := s.updMgmt fun g => { g with sem := g.sem.map fun o => if o = some fwIdent then none else o, fuse := g.fuse.cut }
    (s.mapChan fun _ c => c.cut).updBoot Boot.cutDelivery

/-- R351, R394: what firmware had taken and not answered ends with RESTARTED; notices and answers that wait are kept. -/
def Mailbox.restarted (b : Mailbox) : Mailbox :=
  { b with cmds := [],
           answers := b.answers ++ b.cmds.map fun c =>
             { opcode := cmdOpcode c.word, tag := c.tag, status := stRESTARTED, result := 0 } }

/-- R55, R237, R394: a repair that ended while Priri restarted is recorded, and reported. -/
def State.repairNote (s : State) (n : Ch) : State :=
  match (s.chan.get n).lastRepair with
  | some (hard, l, false) =>
    (s.updChan n fun c => { c with lastRepair := some (hard, l, true) }).repairReport n hard (s.chan.get n).lastFailed l none
  | _ => s

/-- R25, R391, R440: Priri runs again, firmware or the boot ROM, unless a warm reset has superseded the restart (R26). -/
def State.pririRestartDone (s : State) : State :=
  if s.fw.st != .restarting || s.boot.ph == .warm 1 || s.boot.ph == .warm 2 then s
  else
    let commit := s.fw.commitOn.isSome
    let up := s.boot.ph == .up
    let s := allCh.foldl State.repairNote (s.mapMb fun _ b => b.restarted)
    -- R55, R304: the command-lane flows that waited for firmware ask for their pauses
    let s := (allCh.filter fun n => (s.chan.get n).cmdFlow).foldl (fun s n => s.askUrgent n none) s
    if commit then (s.setFwSt .rom).updBoot fun b => { b with stageOpen := true }
    else s.setFwSt (if up && !s.boot.stageOpen then .ready else .rom)

def execPririRestartDone (s : State) : Host.Outcome State Fault Refusal := .next s.pririRestartDone

/-- R22, R411: the watchdog expires, its period after its latest service where firmware has set one. -/
def State.watchdog (s : State) : State :=
  (if s.fw.wdtPeriod = 0 then s else s.advance (s.fw.wdtServed + s.fw.wdtPeriod)).pririRestart 1

def execPririWatchdog (s : State) : Host.Outcome State Fault Refusal := .next s.watchdog

/-- R22: an uncorrectable word of the firmware SRAM. -/
def execFwSramUncorrectable (s : State) : Host.Outcome State Fault Refusal := .next (s.pririRestart 4)

end Sys2Proof.Machine
end

