-- ==== Sys2Proof/Machine/Power.lean ====
section
/-! DEFINITION. Power states: entry, wake, power-up, the Eyespot sampler and reference-clock loss (chapter 10, R308 to
R328; R43 to R49). -/

namespace Sys2Proof.Machine

/-! ## Domains (R40, R320) -/

/-- R241, R384: a CHDIS record names the channel, or it has been disabled since the last cold reset. -/
def State.chDisabled (s : State) (n : Ch) : Bool :=
  s.map.volDis.getLsbD n.val || s.mgmt.fuse.applied.any fun x => recType x.1 == recCHDIS && recChan x.1 == n

/-- R40: usable for its quad: not failed in BIST and not disabled. -/
def State.chUsable (s : State) (n : Ch) : Bool :=
  !s.map.bistFail.getLsbD n.val && !s.chDisabled n

/-- R40: domains that power up: AON, MGMT and XBAR, usable modules, and quads with a usable channel. -/
def State.domUsable (s : State) (d : Fin 39) : Bool :=
  if d.val < 3 then true
  else if d.val < 23 then (s.hlm.get (Fin.ofNat 20 (d.val - 3))).usable
  else (List.range 4).any fun i => s.chUsable (Fin.ofNat 64 (4 * (d.val - 23) + i))

/-- R321: a domain powers down, where it is up. -/
def Power.offDom (p : Power) (now : Nat) (d : Fin 39) : Power :=
  if p.dom.get d = 0 then p else { p with dom := upd p.dom d fun _ => 0, downAt := upd p.downAt d fun _ => now }

def State.offDom (s : State) (d : Fin 39) : State :=
  let now := s.now
  s.updPwr fun p => p.offDom now d

/-- Nothing is left of the work of a quad: no entry, slot to write back or response in its engines, no request to them. -/
def State.quadIdle (s : State) (q : Nat) : Bool :=
  (List.range 4).all fun i =>
    let n : Ch := Fin.ofNat 64 (4 * q + i)
    let c := s.chan.get n
    c.st.tt.isEmpty && c.st.respq.isEmpty && c.st.respqF.isEmpty && c.repair.isNone && c.st.lb.toList.all (fun x => !x.dirty)
      && !s.map.trans.getLsbD (pairOf n).val && allMod.all fun m => let h := s.hlm.get m; (h.ingress ++ h.posted).all (·.ch != n)

/-- R40: quads without a usable channel are held off; one that still has work goes off later (log entry 63, DESIGN CHOICE). What
commands wait for in it ends with FAULT (R366; log entry 66, DESIGN CHOICE). -/
def State.dropDoms (s : State) : State :=
  (List.range 16).foldl (fun s q =>
    if s.domUsable (quadDom q) || s.pwr.dom.get (quadDom q) == 0 || !s.quadIdle q then s
    else
      let s := (List.range 4).foldl (fun s i => (s.endWork stFAULT (Fin.ofNat 64 (4 * q + i))).enterSr (Fin.ofNat 64 (4 * q + i)) none) s
      s.offDom (quadDom q)) s

/-- R40, R472: the engine that serves the channel is lost, or its quad is held off; a command that no rule refuses then fails (log entry
66, DESIGN CHOICE). -/
def State.isGone (s : State) (n : Ch) : Bool :=
  s.map.lost.getLsbD (s.map.server n).val || !s.domUsable (quadDom (quadOf n).val)

/-- Every domain that powers up has done so. -/
def State.allUp (s : State) : Bool := (List.finRange 39).all fun d => !s.domUsable d || s.pwr.dom.get d == 4

/-- R47: AON and MGMT run on the oscillator, the PLL is off. -/
def Clock.toOsc (k : Clock) : Clock := { k with mgmtOsc := true, aonOsc := true, pllLock := false, pllEnabled := false }

/-- The PLL is enabled, where it is not. -/
def State.pllOn (s : State) : State :=
  let now := s.now
  s.updClk fun k => if k.pllLock || k.pllEnabled then k else { k with pllEnabled := true, pllEnabledAt := now }

/-- R321: every domain but AON (and MGMT, where `mgmt` says so) powers down. -/
def Power.offDoms (p : Power) (now : Nat) (mgmt : Bool) : Power :=
  let stays := fun (i : Fin 39) => i.val = 0 || (mgmt && i.val == 1)
  { p with
    dom := Vector.ofFn fun i => if stays i then p.dom.get i else 0
    downAt := Vector.ofFn fun i => if stays i || p.dom.get i == 0 then p.downAt.get i else now }

/-- EV351. -/
def State.pwrEvent (s : State) : State := s.raiseG 351 (BitVec.ofNat 24 s.pwr.state.code) s.pwr.status

/-! ## Entry: deferral (R310 to R312) -/

/-- R373: an answer to POWER_STATE has not been posted yet. -/
def State.owesPower (s : State) : Bool :=
  (List.finRange 24).any fun k => (s.mb k).answers.any fun a => a.opcode == 0x10

/-- R310: the power sequencer takes over. -/
def State.startEntry (s : State) (target : BitVec 2) (bySr : Bool) : State :=
  let now := s.now
  s.updPwr fun p => { p with from_ := p.state, target := target, ph := .defer, bySr := bySr, deferAt := now,
                             state := if target = 1 then .toPupa else .toChrysalis }

/-- R310, R319: Priri executes its wait. -/
def State.pririWait (s : State) : State :=
  if !s.mgmtOn || s.fw.st != .ready || s.owesPower then s
  else
    let s := s.updFw fun f => { f with waiting := true }
    let p := s.pwr
    match p.state with
    | .chrysMgmt =>
      if p.target = 2 ∧ !p.lossHold then (s.stopLog.offDom 1).updPwr fun p => { p with state := .chrysalis } else s
    | .imago =>
      if p.target = 0 ∨ p.target = 3 ∨ p.lossSeq.isSome ∨ p.lossHold ∨ !s.clk.pllLock then s else s.startEntry p.target false
    | .pupa => if p.target = 2 then s.startEntry 2 false else s
    | .toPupa | .toChrysalis | .chrysalis | .waking => s

def execPririWait (s : State) : Host.Outcome State Fault Refusal := .next s.pririWait

/-- R310: kinds that do not use the data path. -/
def RKind.isCfg : RKind → Bool
  | .cfgRd | .cfgWr => true
  | .rd64 | .rd128 | .ldr | .hint | .wr64 | .wrp | .stc | .amo | .mrd | .mwr | .fenceW | .fenceAll | .srEnter => false

/-- R310, R312: no memory request, HINT or fence is left in a module or a table. -/
def State.pathIdle (s : State) : Bool :=
  (allMod.all fun m =>
    let h := s.hlm.get m
    h.tags.all (fun t => t.kind.isCfg || t.kind == .srEnter) && h.fences.isEmpty && h.ingress.isEmpty && h.posted.isEmpty
      && h.flit.inbox.isEmpty)
  && allCh.all fun n => (s.chan.get n).st.tt.all (·.maint)

/-- R463, R464: a recovery action is in progress in the engine: of a command error, of its logic, of a tracker. -/
def Chan.recovers (c : Chan) : Bool := c.st.recov != .none || c.rf.trk.toList.any (·.drain)

/-- R69, R463, R464: a replay is in progress on the link, or has been asked for. -/
def Hlm.replays (h : Hlm) : Bool :=
  h.link == .active && (h.flit.replayAt.isSome || h.flit.nakPending || h.flit.nakSentAt.isSome)

/-- R463: no recovery action is in progress in any unit. -/
def State.recovered (s : State) : Bool := allMod.all (fun m => !(s.hlm.get m).replays) && allCh.all fun n => !(s.chan.get n).recovers

/-- R310, R312, R463: no repair, transition, requalification sweep, pause or recovery is in progress. -/
def State.workIdle (s : State) : Bool :=
  s.map.trans == 0 && s.recovered && allCh.all fun n =>
    let c := s.chan.get n
    c.repair.isNone && !c.offline 0 && !c.offline 1 && (c.pc.get 0).requal.isNone && (c.pc.get 1).requal.isNone

/-- R310: the conditions that end deferral of a native entry. -/
def State.quietNow (s : State) : Bool :=
  s.pathIdle && s.workIdle && !s.mgmt.scrub.running && allCh.all fun n => !(s.chan.get n).cfg.hold

/-- R310: since when the conditions have held: the wait, the latest request or end of work, the latest host entry freed. -/
def State.quietSince (s : State) : Nat :=
  allCh.foldl (fun t n => max t (s.chan.get n).st.freeAt) (max s.pwr.deferAt s.pwr.stirAt)

/-- R310: the conditions have held for the quiet time. -/
def State.quietTimeExpiry (s : State) : State :=
  if s.pwr.ph == .defer && !s.pwr.bySr && s.quietNow then
    (s.advance (s.quietSince + s.pwr.quiet)).updPwr fun p => { p with ph := .step 1 }
  else s

def execQuietTimeExpiry (s : State) : Host.Outcome State Fault Refusal := .next s.quietTimeExpiry

/-- R310: the entry is abandoned. -/
def State.deferMaxExpiry (s : State) : State :=
  if s.pwr.ph == .defer && !s.pwr.bySr then (s.advance (s.pwr.deferAt + s.pwr.deferMax)).abortEntry 3 else s

def execDeferMaxExpiry (s : State) : Host.Outcome State Fault Refusal := .next s.deferMaxExpiry

/-- R378, R312: the running pass is aborted. -/
def State.abortScrub (s : State) : State :=
  if s.mgmt.scrub.running then (s.mapChan fun _ c => { c with share := false }).updScrub fun b => { b with aborted := true }
  else s

/-- R94: WACK for SR_ENTER goes out before its module parks. -/
def State.sendSrWack (s : State) : State :=
  s.mapHlm fun _ h =>
    match h.srTag with
    | none => h
    | some (p, t) => { h with srTag := none, txq := h.txq ++ [{ outMsg opWACK p t with credit := .read }] }

/-- R312, R314: SR_ENTER has been accepted: a pass and sweeps end, and the entry starts, or a native one goes on with target
Chrysalis. One that was past its deferral takes that of R312 and its steps again, since requests that other modules accept before
the acceptance reaches them are served and drained first (R94; log entry 74, DEDUCED). -/
def State.srStart (s : State) : State :=
  let s := s.abortScrub
  let s := allCh.foldl (fun s n => (s.abandonRequal n 0).abandonRequal n 1) s
  if s.pwr.ph = .none then s.startEntry 2 true
  else s.updPwr fun p => { p with target := 2, bySr := true, state := .toChrysalis, ph := .defer }

/-- R94: the acceptance of SR_ENTER has reached this module, or cannot matter to it. -/
def Hlm.srReached (h : Hlm) : Bool := h.srBlocked || h.link != .active

/-- R312: deferral of an entry by SR_ENTER ends. -/
def State.srEnterDeferralEnd (s : State) : State :=
  if s.pwr.ph == .defer && s.pwr.bySr && !s.pwr.trip && s.pathIdle && s.workIdle && allMod.all fun m => (s.hlm.get m).srReached then
    s.updPwr fun p => { p with ph := .step 1 }
  else s

def execSrEnterDeferralEnd (s : State) : Host.Outcome State Fault Refusal := .next s.srEnterDeferralEnd

/-! ## Entry: the steps (R313, R314) -/

/-- Engines that serve a channel whose dies are up; a channel that has been disabled still drains (R198). -/
def State.upCh (s : State) : List Ch :=
  s.liveCh.filter fun n => !s.map.isFollower n && (s.chan.get n).st.pwr == .active

/-- R313 E3 of an entry to Chrysalis: every owed refresh is issued; dies in power-down take PDX first, and PDE again after (R284). -/
def State.payAll (s : State) : State :=
  (s.liveCh.filter fun n => !s.map.isFollower n).foldl (fun s n =>
    match (s.chan.get n).st.pwr with
    | .active => s.payOwed n
    | .powerDown => if (s.chan.get n).rf.owed.toList.all List.isEmpty then s else ((s.exitPd n).payOwed n).enterPd n
    | .selfRefresh => s) s

/-- R326: the largest multiplier in force in any channel and SID. -/
def State.maxMult (s : State) : Nat :=
  ((s.liveCh.map fun n => ((List.finRange 4).map fun i => if i.val < s.map.nsid then s.mult n i else 1).foldl max 1)).foldl max 1

/-- E1: a module has nothing left to drain, and no table holds an entry; recoveries have ended (R463), and no dirty slot
waits for dies that are in self-refresh (R198). -/
def State.drained (s : State) : Bool :=
  (allMod.all fun m => (s.hlm.get m).posted.isEmpty) && s.recovered && allCh.all fun n =>
    let c := s.chan.get n
    c.st.tt.isEmpty && (c.st.pwr != .selfRefresh || c.st.lb.toList.all fun x => !x.dirty)

/-- R84, R95, R428: a CFG access that the module has accepted will still be answered: all but a read of LOG_POP that waits on an empty
log, whose tag an entry to Chrysalis leaves without an answer (log entry 76, DESIGN CHOICE). -/
def State.cfgOwed (s : State) (m : Mod) (q : CfgReq) : Bool := !(s.mgmt.log.pops.any fun a => a.org == .inband m q.seq)

/-- E4: a module may park: nothing waits to be checked, answered or sent; one in a reset or in training does not park yet. -/
def State.mayPark (s : State) (m : Mod) : Bool :=
  let h := s.hlm.get m
  match h.link with
  | .down | .parked | .unusable => true
  | .training | .reset => false
  | .active => h.txq.isEmpty && h.flit.txSlots.isEmpty && h.flit.inbox.isEmpty && h.srTag.isNone && h.errs.isEmpty
      && !(h.cfgq.any (s.cfgOwed m))

def Hlm.park (h : Hlm) : Hlm := if h.link == .active then { h with link := .parked } else h

/-- R41: a module that loses power keeps nothing in transit; a parked link will resume at its link-up values. A read of LOG_POP that
still waits is dropped with its tag (log entry 76, DESIGN CHOICE). -/
def Hlm.sleep (h : Hlm) : Hlm := { h.settle with flit := { last := h.flit.last } }

/-- R314: a trip that began on the way to Chrysalis. -/
def State.tripChrysStart (s : State) (t : BitVec 8) : State :=
  let s := s.updPwr fun p => { p with trip := true, tripChrys := true, tripRun := 0, tripPend := false }
  let s := s.mapChan fun _ c => c.updSt fun x => { x with tripHold := true }
  s.raiseG 347 1 (t.setWidth 32)

/-- R315: a data-path wake starts: its source, and the module it came from. After a loss of the reference clock nothing
resumes (R49). -/
def State.startWake (s : State) (src : BitVec 4) (m : BitVec 5) : State :=
  if s.pwr.lossHold then s else
  let now := s.now
  let s := s.updPwr fun p => { p with lastWake := src, wakeHlm := if m = 0x1F then p.wakeHlm else m, wakePend := none,
                                      mgmtWake := false, from_ := p.state, state := .waking, upAt := now }
  (s.mapChan fun n c => if (s.chan.get (s.map.server n)).inBurst then c.endBurst else c).pllOn

/-- R328: one entry of the ring. -/
def Eye3.record (e : Eye3) (core base : BitVec 8) (breach mode fail aband trip : Bool) (now : Nat) : Eye3 :=
  let v := e.visits + 1
  let ms := min 65535 ((now - e.enteredAt) / 1000000)
  let ent : EyeEnt :=
    { lo := v ++ core ++ base,
      hi := bit1 breach ++ bit1 mode ++ bit1 fail ++ bit1 aband ++ bit1 trip ++ mulCode e.rate ++ (0 : BitVec 9) ++ BitVec.ofNat 16 ms }
  { e with visits := v, widx := e.widx + 1, ring := upd e.ring (Fin.ofNat 16 e.widx.toNat) fun _ => ent, inVisit := false }

/-- R314: the commands of a visit that have not begun are not issued: those of a sentinel whose SRX has not gone out. -/
def Chan.cutVisit (c : Chan) (start now : Nat) : Chan :=
  if c.st.hist.any fun p => p.op == .srx && decide (start < p.at_) && decide (p.at_ ≤ now) then c
  else c.updSt fun x => { x with hist := x.hist.filter (fun p => decide (p.at_ ≤ now)), rowAt := x.rowAt.map (min now) }

/-- R314: a data-path wake ends a visit at its next step. Its ring entry shows no reading, 0x80 and 0x80, and no flag but abandoned
(log entry 69, DESIGN CHOICE). -/
def State.abandonVisit (s : State) : State :=
  if s.pwr.eye.inVisit then
    let now := s.now
    let start := s.pwr.eye.lastStart
    (s.mapChan fun _ c => c.cutVisit start now).updPwr fun p => { p with eye := p.eye.record 0x80 0x80 false false false true false now }
  else s

/-- R313 E6 of an entry to Pupa. -/
def State.inPupa (s : State) : State :=
  let s := s.updPwr fun p => { p with state := .pupa, ph := .none, bySr := false, srEntered := false, entries := p.entries + 1 }
  let s := s.dropDoms.pwrEvent
  let s := if s.pwr.tripPend then s.tripBegin (BitVec.ofInt 8 s.tHotNow) else s
  match s.pwr.wakePend with
  | some (src, m) => s.startWake src m
  | none => s

/-- R313 E6 of an entry to Chrysalis: the oscillator, domains off, transient state gone. -/
def State.inChrysalis (s : State) : State :=
  let now := s.now
  let s := s.updPwr fun p =>
    { p.offDoms now false with
      state := .chrysalis, ph := .none, srEntered := p.bySr, bySr := false, entries := p.entries + 1,
      eye := { p.eye with enteredAt := now, lastStart := now, inVisit := false, rate := p.eye.rateEntry, fall := 0, failRun := 0, coolRun := 0 } }
  let s := ((s.updClk Clock.toOsc).mapChan fun _ c => c.emptyEngine).mapHlm fun _ h => h.sleep
  let s := s.stopLog.pwrEvent
  -- R314, R333: a trip that began during the entry, or on the way of SR_ENTER through it, goes on in Chrysalis
  let s := if s.pwr.tripPend then s.tripChrysStart (BitVec.ofInt 8 s.tHotNow)
    else if s.pwr.trip then s.updPwr fun p => { p with tripChrys := true, tripRun := 0 } else s
  match s.pwr.wakePend with
  | some (src, m) => s.startWake src m
  | none => s

/-- R313 E5, R326: dies that are in self-refresh already, at another rate, have the rate written too. -/
def State.setSrRate (s : State) (n : Ch) (r : Nat) : State :=
  let v : BitVec 8 := (mulCode r).setWidth 8
  if s.map.isFollower n || ((s.chan.get n).dies.get 0).read 0x68 == v then s
  else s.srVisit n s.now fun s => s.mrwAll n 0x68 v

def State.setStep (s : State) (k : Nat) : State := s.updPwr fun p => { p with ph := .step k }

/-- R313: the step in hand has completed in every module and channel. -/
def State.entryStepComplete (s : State) : State :=
  let pupa := s.pwr.state == .toPupa
  match s.pwr.ph with
  | .none | .defer => s
  | .step k =>
    if k = 1 then
      if s.drained then (s.upCh.foldl State.flushLb s).setStep 2 else s
    else if k = 2 then
      let s := (s.liveCh.filter fun n => !s.map.isFollower n).foldl State.drainTrackers s
      (s.mapChan fun _ c => c.clearTrackers.updSt fun x => { x with rsv := [], rsvEvs := [] }).setStep 3
    else if k = 3 then
      let s := if pupa then s.upCh.foldl (fun s n => s.pullAll n fun _ => true) s else s.payAll
      (if s.pwr.bySr then s.sendSrWack else s).setStep 4
    else if k = 4 then
      if allMod.all s.mayPark then (s.mapHlm fun _ h => h.park).setStep 5 else s
    else if k = 5 then
      let live := s.liveCh
      if pupa then
        (live.foldl (fun s n => if (s.chan.get n).st.pwr == .active then (s.preabAll (s.map.server n)).enterPd n else s) s).setStep 6
      else
        let r := s.maxMult
        let s := live.foldl (fun s n => (s.enterSr n (some r)).setSrRate n r) s
        (s.updPwr fun p => { p with eye := { p.eye with rateEntry := r } }).setStep 6
    else if pupa then s.inPupa
    else s.inChrysalis

def execEntryStepComplete (s : State) : Host.Outcome State Fault Refusal := .next s.entryStepComplete

/-- R311, R312: a link partner refuses the park. -/
def State.parkRefused (s : State) (m : Mod) : State :=
  if s.pwr.ph == .step 4 && (s.hlm.get m).link == .active then
    (if s.pwr.bySr then s.updHlm m fun h => { h.settle with link := .down, epoch := h.epoch + 1 } else s.abortEntry 2)
  else s

def execParkRefused (m : Mod) (s : State) : Host.Outcome State Fault Refusal := .next (s.parkRefused m)

/-! ## Wake sources (R314 to R316, R319) -/

/-- R315: a detector of a module sees its source. A wake seen after the commit point waits for the entry to end; one seen
earlier on a way from Pupa to Chrysalis is a request that arrives, which aborts the entry (R311). -/
def State.moduleWake (s : State) (m : Mod) (src : BitVec 4) (deep : Bool) : State :=
  let id := BitVec.ofNat 5 m.val
  if !(s.hlm.get m).usable then s
  else
    match s.pwr.state with
    | .chrysalis | .chrysMgmt => (s.abandonVisit).startWake src id
    | .pupa => if deep then s else s.startWake src id
    | .toChrysalis =>
      if s.pwr.committed then s.updPwr fun p => { p with wakePend := some (p.wakePend.getD (src, id)) }
      else if s.pwr.from_ == .pupa && s.pwr.abortable && !deep then (s.abortEntry 1).startWake src id
      else s
    | .toPupa => if s.pwr.committed && !deep then s.updPwr fun p => { p with wakePend := some (p.wakePend.getD (src, id)) } else s
    | .imago | .waking => s

def execFlitActivityWake (m : Mod) (s : State) : Host.Outcome State Fault Refusal := .next (s.moduleWake m 1 false)

def execSidebandExitRequest (m : Mod) (s : State) : Host.Outcome State Fault Refusal := .next (s.moduleWake m 3 false)

/-- R316: a run of transitions within 4 ns on the valid lane: from 24 a wake, below 8 none; between them the detector may
or may not see it. -/
def State.wakePattern (s : State) (m : Mod) (k : Nat) : State :=
  if !s.pwr.patEn.getLsbD m.val ∨ k < 8 then s
  else if 24 ≤ k then s.moduleWake m 2 true
  else
    let (b, s) := s.drawBits 1
    if b = 1 then s.moduleWake m 2 true else s

def execWakePattern (m : Mod) (transitions : Nat) (s : State) : Host.Outcome State Fault Refusal :=
  .next (s.wakePattern m transitions)

/-- R319: a private transfer to one of Grehielm's addresses is NACKed and powers MGMT. -/
def State.i3cAddressMatch (s : State) : State :=
  if s.pwr.state == .chrysalis && !s.pwr.mgmtWake then s.updPwr fun p => { p with mgmtWake := true, lastWake := 5 } else s

def execI3cAddressMatch (s : State) : Host.Outcome State Fault Refusal := .next s.i3cAddressMatch

/-! ## Power-up (R43, R47, R320) -/

/-- R43, R47: lock is reported, and AON and MGMT go back to the PLL. The PLL of an Eyespot visit clocks nothing else
(R323). -/
def State.onPllLock (s : State) : State :=
  if !s.clk.pllEnabled || s.clk.pllLock || !s.clk.refclkOk || s.pwr.eye.inVisit then s
  else s.updClk fun k => { k with pllLock := true, mgmtOsc := false, aonOsc := false }

def execPllLock (s : State) : Host.Outcome State Fault Refusal := .next s.onPllLock

/-- R453: the modules and domains of a BIST group. -/
def groupMod (g : Nat) : List Mod :=
  [Fin.ofNat 20 g, Fin.ofNat 20 (g + 8)] ++ (if g ≤ 3 then [Fin.ofNat 20 (g + 16)] else [])
def groupDoms (g : Nat) : List (Fin 39) := (groupMod g).map modDom ++ [quadDom (2 * g), quadDom (2 * g + 1)]

/-- A domain is on its way up: at a cold boot AON, MGMT, XBAR once the PLL has locked, and those of the BIST group that runs; a wake
and a warm boot power every usable domain; firmware may close any switch itself (R339). -/
def State.powering (s : State) (d : Fin 39) : Bool :=
  let warm := s.boot.ph == .warm 3
  if s.pwr.lossHold then false
  else if s.pwr.seqOn.getLsbD d.val && s.mgmtOn then true
  else if d.val = 0 then s.boot.ph == .cold 1
  else if d.val = 1 then s.boot.ph == .cold 3 || s.pwr.state == .waking || (s.pwr.state == .chrysalis && s.pwr.mgmtWake) || warm
  else ((s.pwr.state == .waking || warm) && s.domUsable d) || (d.val == 2 && s.boot.ph == .cold 6)
    || (s.boot.ph == .cold 7 && s.boot.groupRun && (groupDoms s.boot.group).contains d)

/-- R319: MGMT is ready on the oscillator, and firmware goes on after its wait. -/
def State.mgmtAwake (s : State) : State :=
  let s := s.updPwr fun p => { p with state := .chrysMgmt, mgmtWake := false }
  (s.updFw fun f => { f with waiting := false }).pwrEvent

/-- R320: the wave in which the switch of a domain closes: 0 but for the quads, four quads in each. -/
def waveOf (d : Fin 39) : Nat := if d.val < 23 then 0 else (d.val - 23) / 4

/-- R320, R321: the earliest time of a domain's first ready signal: its wave has come, 0.5 us after the one before, and its last
power-down is over; the two quads of a BIST group close in one wave. -/
def State.switchAt (s : State) (d : Fin 39) : Nat :=
  max (if s.boot.ph == .cold 7 then 0 else s.pwr.upAt + 500 * waveOf d) (s.pwr.downAt.get d + 20)

/-- R320: the ready signal of a domain's step; the oscillator step of other domains than AON and MGMT waits for lock. -/
def State.powerUpStepReady (s : State) (d : Fin 39) : State :=
  let k := s.pwr.dom.get d
  if !s.powering d || decide (4 ≤ k) || (k == 1 && decide (2 ≤ d.val) && !s.clk.pllLock) then s
  else
    let s := if k = 0 then s.advance (s.switchAt d) else s
    let s := s.updPwr fun p => { p with dom := upd p.dom d fun _ => k + 1 }
    let s := if d = 1 ∧ k = 3 then s.resumeLog else s
    if d = 1 ∧ k = 3 ∧ s.pwr.state = .chrysalis then s.mgmtAwake else s

def execPowerUpStepReady (d : Fin 39) (s : State) : Host.Outcome State Fault Refusal := .next (s.powerUpStepReady d)

/-! ## Wake completion (R317, R318, R333) -/

/-- R259, R260, R317: the dies after a wake; a trip in force keeps them in self-refresh. -/
def State.wakeDies (s : State) : State :=
  if s.pwr.trip then
    let now := s.now
    (s.mapChan fun _ c => c.updSt fun x => { x with tripHold := true }).updPwr fun p =>
      if p.tripChrys then { p with tripChrys := false, tripRun := 0, lastCheck := now } else p
  else
    s.liveCh.foldl (fun s n =>
      match (s.chan.get n).st.pwr with
      | .active => s
      | .selfRefresh => if (s.chan.get (s.map.server n)).inReset then s else s.exitSr n
      | .powerDown => s.exitPd n) s

/-- R164: every bucket is full. -/
def Port.full (p : Port) : Port := { p with tokC := 1000 * p.force.cbs.toNat, tokP := 1000 * p.force.pbs.toNat }

/-- The wake is from Chrysalis. -/
def Power.deep (p : Power) : Bool := p.from_ != .pupa

/-- R317: a parked link can become active; one in a link reset trains first (R96 step 4, R98). -/
def Hlm.canResume (h : Hlm) : Bool := h.link == .parked

/-- R98, R317: the first module is active: Grehielm is in Imago. Where no link can become active, the wake completes without. A
module whose training the low power cut off starts it again. -/
def State.wakeComplete (s : State) (m : Mod) : State :=
  let h := s.hlm.get m
  if !s.clk.pllLock || !(h.canResume || allMod.all fun k => !(s.hlm.get k).canResume) then s
  else
    match s.pwr.state with
    | .waking =>
      if !s.allUp then s
      else
        let s := s.wakeDies
        let now := s.now
        let again := fun h : Hlm => if h.inTraining then h.startTraining now else h
        let s := (s.mapHlm fun _ h => { again h with srBlocked := false, srTag := none }).resumeLink m
        let s := (s.mapPort fun _ p => p.full).updPwr fun p => { p with state := .imago, target := 0 }
        (s.updFw fun f => { f with waiting := false }).pwrEvent
    | .imago => s.resumeLink m
    | .toPupa | .pupa | .toChrysalis | .chrysalis | .chrysMgmt => s

def execWakeComplete (m : Mod) (s : State) : Host.Outcome State Fault Refusal := .next (s.wakeComplete m)

/-! ## The Eyespot sampler (R323 to R328, R333) -/

/-- R323, R324: the commands of a visit to the sentinel channels, from 9 us after its start: SRX, TMP of every SID, the owed refreshes
and SRE; none without a clock for the PLL to lock to. -/
def State.sentinelVisits (s : State) : State :=
  let nsid := s.map.nsid
  let t := s.now + 9000
  if !s.clk.refclkOk then s
  else (List.range 4).foldl (fun s k => match s.map.sentinel k with
    | some n => s.srVisit (s.map.server n) t fun s =>
        State.visitRefresh (s.map.server n) nsid (State.srTmps (s.map.server n) nsid s)
    | none => s) s

/-- R323: the period has passed since the start of the last visit, or since the entry. -/
def State.eyespotVisitStart (s : State) : State :=
  if (s.pwr.state == .chrysalis || s.pwr.state == .chrysMgmt) && !s.pwr.eye.inVisit then
    let s := s.advance (s.pwr.eye.lastStart + 1000000 * s.pwr.eye.period)
    let now := s.now
    (s.updPwr fun p => { p with eye := { p.eye with inVisit := true, lastStart := now } }).pllOn.sentinelVisits
  else s

def execEyespotVisitStart (s : State) : Host.Outcome State Fault Refusal := .next s.eyespotVisitStart

/-- The readings of a visit's core dies, none for a read that failed (R280, R324). -/
def State.sentinelReads (s : State) (tmps : List TmpSample) : List (Option (BitVec 8)) :=
  (List.range 4).flatMap fun k =>
    match s.map.sentinel k with
    | none => []
    | some n => ((List.finRange 4).filter fun i => decide (i.val < s.map.nsid)).map fun i => sampleOf tmps n i

/-- The largest of some readings. -/
def maxRead (l : List (BitVec 8)) : Option (BitVec 8) :=
  match l with
  | [] => none
  | _ => some (BitVec.ofInt 8 (maxInt (l.map (·.toInt))))

/-- R248: the multiplier of a core-die reading. -/
def coreRate (t : BitVec 8) : Nat := if t.toInt ≤ 85 then 1 else if t.toInt ≤ 95 then 2 else 4

/-- R326: the rate after a visit, and the run of visits cool enough for the next lower one. -/
def Eye3.nextRate (e : Eye3) (core : Option (BitVec 8)) (fail : Bool) : Nat × Nat :=
  if fail then (4, 0)
  else
    let own := match core with
      | some t => coreRate t
      | none => 1
    let want := max e.rateEntry own
    if e.rate < want then (want, 0)
    else if want < e.rate then
      let bound : Int := if e.rate = 4 then 95 else 85
      let cool := match core with
        | some t => decide (t.toInt ≤ bound - 3)
        | none => false
      if !cool then (e.rate, 0) else if e.coolRun = 1 then (max want (e.rate / 2), 0) else (e.rate, e.coolRun + 1)
    else (e.rate, 0)

/-- R333: the end of a trip after two cool visits. -/
def State.tripChrysEnd (s : State) (t : BitVec 8) : State :=
  let s := s.updPwr fun p => { p with trip := false, tripChrys := false, tripRun := 0 }
  (s.mapChan fun _ c => c.updSt fun x => { x with tripHold := false, tripAt := none }).raiseG 347 0 (t.setWidth 32)

/-- R333: what a visit does to the trip. -/
def State.visitTrip (s : State) (hot : BitVec 8) (reached cool : Bool) : State :=
  if reached then
    let s := if s.pwr.trip then s.updPwr fun p => { p with tripRun := 0 } else s.tripChrysStart hot
    if s.pwr.state == .chrysalis then s.updPwr fun p => { p with mgmtWake := true, lastWake := 5 } else s
  else if !s.pwr.trip then s
  else if cool && decide (1 ≤ s.pwr.tripRun) then s.tripChrysEnd hot
  else s.updPwr fun p => { p with tripRun := if cool then 1 else 0 }

/-- R325 to R328, R333: a visit that has found its PLL lock ends; the answers of the 64 base-die sensors and of the sentinels' dies come with it. -/
def State.eyespotVisitEnd (s : State) (base : Vector (BitVec 8) 64) (tmps : List TmpSample) : State :=
  if !s.pwr.eye.inVisit || !s.clk.refclkOk then s
  else
    let s := s.advance (s.pwr.eye.lastStart + 40000)
    let now := s.now
    let rs := s.sentinelReads tmps
    let fail := rs.any Option.isNone
    let core := maxRead (rs.filterMap id)
    let bt := maxRead base.toList
    let le := fun (k : Int) (o : Option (BitVec 8)) => o.any fun t => decide (k ≤ t.toInt)
    let reached := le 110 core || le 110 bt
    let cool := !fail && !le 100 core && !le 100 bt
    let e := s.pwr.eye
    let r := if reached then (4, 0) else e.nextRate core fail
    let failRun := if fail then e.failRun + 1 else 0
    let wakeHi : Int := e.wakeHi.toInt
    let breach := !reached && (le wakeHi core || le wakeHi bt || decide (2 ≤ failRun))
    let mode := r.1 != e.rate
    let nsid := s.map.nsid
    let s := if mode then (s.liveCh.filter fun n => !s.map.isFollower n).foldl (fun s n =>
        s.srVisit n now fun s => State.visitRefresh n nsid (s.mrwAll n 0x68 ((mulCode r.1).setWidth 8))) s
      else s
    let e' : Eye3 := { e with rate := r.1, coolRun := r.2, failRun := failRun }
    let e' := e'.record (core.getD 0x80) (bt.getD 0x80) breach mode fail false reached now
    let s := s.updPwr fun p => { p with eye := e' }
    let s := s.updClk fun k => { k with pllEnabled := false }
    let hot := BitVec.ofInt 8 (max ((core.getD 0x80).toInt) ((bt.getD 0x80).toInt))
    let s := s.visitTrip hot reached cool
    if breach then s.startWake 4 0x1F else s

def execEyespotVisitEnd (base : Vector (BitVec 8) 64) (tmps : List TmpSample) (s : State) :
    Host.Outcome State Fault Refusal := .next (s.eyespotVisitEnd base tmps)

/-! ## Loss of the reference clock (R48, R49, R314, R481) -/

/-- R48: loss is declared: cause 0 edges missing, 1 lock lost. Steps 1 and 2; nothing resumes before a warm or cold reset
(R49). -/
def State.declareLoss (s : State) (cause : BitVec 1) : State :=
  let s := if s.pwr.abortable then
      let (c, s) := s.drawNat 4
      s.abortEntry (BitVec.ofNat 4 (c + 1))
    else s
  let n := ((allMod.map fun m => (s.hlm.get m).posted.length).sum) + ((allCh.map fun c => (s.chan.get c).unissued).sum)
  let s := s.updClk fun k => { k with pllLock := k.pllLock && cause == 0 }
  let s := s.updPwr fun p => { p with lossSeq := some cause, refLosses := satInc p.refLosses, lossDisc := BitVec.ofNat 32 n, lossHold := true,
                                      ph := .none, bySr := false, state := if p.state = .toPupa ∨ p.state = .toChrysalis then p.from_ else p.state }
  let s := allCh.foldl (fun s k =>
    ((s.chan.get k).st.tt.filter fun e => e.st == .colwr).foldl (fun s e => s.forceWrite k e) s) s
  (s.mapChan fun _ c => c.emptyEngine).mapHlm fun _ h => { h.linkEnd with posted := [] }

/-- R48, R481: no edge in 160 ns. Where the PLL does not run, the next visit or wake finds no lock. -/
def State.refclkLoss (s : State) : State :=
  let run := s.clk.pllLock && s.pwr.lossSeq.isNone
  let s := s.updClk fun k => { k with refclkOk := false }
  if run then s.declareLoss 0 else s

def execRefclkLoss (s : State) : Host.Outcome State Fault Refusal := .next s.refclkLoss

def execPllLockLoss (s : State) : Host.Outcome State Fault Refusal :=
  .next (if s.clk.pllLock && s.pwr.lossSeq.isNone then s.declareLoss 1 else s)

/-- EV344. -/
def State.lossEvent (s : State) (cause : BitVec 1) : State := s.raiseG 344 (cause.setWidth 24) s.pwr.lossDisc

/-- R48 steps 3 and 4: SRE, the oscillator, domains off. -/
def State.refclkLossSequenceDone (s : State) : State :=
  match s.pwr.lossSeq with
  | none => s
  | some cause =>
    let s := s.liveCh.foldl (fun s n => s.enterSr n none) s
    let now := s.now
    let s := (s.updClk Clock.toOsc).updPwr fun p => { p.offDoms now true with lossSeq := none }
    s.lossEvent cause

def execRefclkLossSequenceDone (s : State) : Host.Outcome State Fault Refusal := .next s.refclkLossSequenceDone

/-- R481: edges are seen again; a cold boot held at B6 goes on 10 us later, and a warm boot can lock the PLL. -/
def State.refclkValid (s : State) : State :=
  let was := s.clk.refclkOk
  let s := s.updClk fun k => { k with refclkOk := true }
  if s.boot.ph == .cold 6 && !was then (s.advance (s.now + 10000)).pllOn
  else if s.boot.ph == .warm 3 && !was then s.pllOn
  else s

def execRefclkValid (s : State) : Host.Outcome State Fault Refusal := .next s.refclkValid

/-- R314: no lock within 8 us of a wake or a visit: Grehielm stays in Chrysalis with MGMT awake on the oscillator. -/
def State.pllLockTimeout (s : State) : State :=
  let p := s.pwr
  let deepWake := p.state == .waking && p.deep
  let visit := p.eye.inVisit && (p.state == .chrysalis || p.state == .chrysMgmt)
  if s.clk.pllLock || !s.clk.pllEnabled || !(deepWake || visit) then s
  else
    let s := (s.advance (s.clk.pllEnabledAt + 8000)).abandonVisit
    let cause : BitVec 1 := if s.clk.refclkOk then 1 else 0
    let now := s.now
    let s := (s.updClk Clock.toOsc).updPwr fun p =>
      { p.offDoms now true with
        state := if p.state = .chrysMgmt then .chrysMgmt else .chrysalis, mgmtWake := p.state != .chrysMgmt,
        refLosses := satInc p.refLosses, lossDisc := 0, lossHold := true }
    let s := s.lossEvent cause
    if s.pwr.state == .chrysalis && s.pwr.dom.get 1 == 4 then s.mgmtAwake else s

def execPllLockTimeout (s : State) : Host.Outcome State Fault Refusal := .next s.pllLockTimeout

end Sys2Proof.Machine
end

