-- ==== Sys2Proof/Machine/Mailbox.lean ====
section
/-! DEFINITION. Mailbox channels: words, full flags, takes and posts, windows, bindings (chapter 11; R364, R369, R489). -/

namespace Sys2Proof.Machine

/-! ## The owner's side (R348, R350) -/

/-- R310, R350: Priri leaves its wait; a native entry before its commit point ends with it. -/
def State.wakePriri (s : State) : State :=
  if s.fw.waiting then (s.abortEntry 4).updFw fun f => { f with waiting := false } else s

/-- R345, R348: the owner writes the inbound word. -/
def State.inboundWrite (s : State) (who : Ident) (k : Mb) (v : Word) : State :=
  if (s.mb k).inFull then s.updMb k fun b => { b with inOvf := satInc b.inOvf }
  else
    (s.updMb k fun b => { b with inw := who ++ v.extractLsb' 0 21, inFull := true, wake := true }).wakePriri

/-- R365, R368: the scrub engine is free once its notice has left the channel. -/
def State.freeScrub (s : State) (k : Mb) : State :=
  s.updScrub fun b => if b.mb = some k ∧ !b.running then { b with held := false } else b

/-- The outbound word is a SCRUB_DONE notice. -/
def outIsScrubDone (w : Word) : Bool := cmdOpcode w == 0x7F && w.extractLsb' 0 8 == 1

/-- R391, R393: an answer OK to FW_COMMIT or RESET, after which a reset follows; an answer of another status under its tag is none. -/
def resetAnswer (opcode : BitVec 7) (status : BitVec 4) : Bool := (opcode == 0x69 || opcode == 0x78) && status == stOK

/-- R348, R393: the owner takes the outbound word. -/
def State.takeOut (s : State) (k : Mb) : State :=
  let b := s.mb k
  if !b.outFull then s
  else
    let tag := cmdTag b.out
    let notice := cmdOpcode b.out == 0x7F
    let s := s.updMb k fun b => { b with outFull := false, posted := if notice then b.posted else b.posted.erase tag }
    let s := if outIsScrubDone b.out then s.freeScrub k else s
    if resetAnswer (cmdOpcode b.out) (b.out.extractLsb' 8 4) && s.fw.resetAsks.contains (k, tag, true) then s.startWarm 2 else s

/-! ## Firmware's side (R345 to R351) -/

/-- R50, R391, R435: Priri can take and post words: firmware or the loader runs, in a powered domain; firmware that has not reported
READY yet too. -/
def State.fwRuns (s : State) : Bool :=
  s.mgmtOn && (s.fw.st == .ready || s.fw.st == .loader || (s.fw.st == .rom && s.fw.started))

/-- R365: what a command needs from its take to its answer. Where it names no channel it needs nothing, and fails its checks. -/
def State.resOf (s : State) (k : Mb) (w : Word) : CmdRes :=
  match (cmdOpcode w).toNat with
  | 0x30 | 0x31 | 0x38 | 0x39 =>
    match s.cmdChans k w with
    | n :: _ => .repair (s.map.server n)
    | [] => .none
  | 0x48 => .pair (Fin.ofNat 32 (argBits w 0 5))
  | 0x50 => if argBits w 8 2 = 0 ∨ argBits w 8 2 = 2 then .fuse else .none
  | 0x58 | 0x5A | 0x5B => .fuse
  | 0x60 | 0x68 => .key
  | _ => .none

/-- R365: a command that has been taken and not answered holds the resource. -/
def State.resHeld (s : State) (r : CmdRes) : Bool :=
  r != .none && s.mgmt.mb.toList.any fun b => b.cmds.any fun c => !c.busy && c.res == r

/-- R369: the classes that may send an opcode, as bits of in-band 0, sideband 1 and debug 2; none for an unassigned one.
RESET is open to each class for some kind (R393). -/
def opcodeClasses (o : BitVec 7) : Option (BitVec 3) :=
  let is := 0b011
  let isd := 0b111
  let sd := 0b110
  match o.toNat with
  | 0x01 => some isd
  | 0x08 => some 0b010
  | 0x10 => some is
  | 0x18 => some is
  | 0x20 => some is
  | 0x21 => some is
  | 0x28 => some is
  | 0x29 => some is
  | 0x2A => some isd
  | 0x30 => some is
  | 0x31 => some is
  | 0x38 => some is
  | 0x39 => some is
  | 0x40 => some is
  | 0x48 => some is
  | 0x50 => some sd
  | 0x58 => some isd
  | 0x59 => some sd
  | 0x5A => some sd
  | 0x5B => some sd
  | 0x60 => some isd
  | 0x68 => some is
  | 0x69 => some is
  | 0x70 => some isd
  | 0x74 => some isd
  | 0x78 => some isd
  | _ => none

/-- R364, R393: the class of a word's sender may send it. -/
def mayCommand (w : Word) : Bool :=
  let c := identClass (cmdStamp w)
  match opcodeClasses (cmdOpcode w) with
  | none => false
  | some m => m.getLsbD c && !(cmdOpcode w == 0x78 && c == 0 && ((cmdArg w).extractLsb' 8 4 == 1 || (cmdArg w).extractLsb' 8 4 == 3))

/-- R347: the tag is outstanding on the channel. -/
def Mailbox.tagBusy (b : Mailbox) (tag : BitVec 2) : Bool :=
  b.cmds.any (·.tag == tag) || b.answers.any (fun a => a.opcode != 0x7F && a.tag == tag) || b.posted.contains tag

/-- R489: what the first three checks answer, none where they pass. -/
def Mailbox.takeStatus (b : Mailbox) (w : Word) : Option (BitVec 4) :=
  if (opcodeClasses (cmdOpcode w)).isNone then some stUNKNOWN
  else if !mayCommand w then some stDENIED
  else if b.tagBusy (cmdTag w) then some stDUPTAG
  else none

/-- R348, R365, R366: firmware takes the inbound word; the command is in progress, or its refusal is ready. The take clears the
channel's bit of MB_WAKE_STATUS (log entry 80, DESIGN CHOICE). -/
def State.fwTake (s : State) (k : Mb) : State :=
  let b := s.mb k
  if !s.fwRuns || !b.inFull then s
  else
    let w := b.inw
    let seq := s.fw.takeSeq
    let res := s.resOf k w
    let busy := s.resHeld res
    let idle := (s.cmdChans k w).all fun n => (s.chan.get (s.map.server n)).holdIdle
    let s := s.updFw fun f => { f with takeSeq := seq + 1 }
    let s := s.updMb k fun b =>
      let b := { b with inFull := false, wake := false }
      match b.takeStatus w with
      | some st => { b with answers := b.answers ++ [{ opcode := cmdOpcode w, tag := cmdTag w, status := st, result := 0 }] }
      | none =>
        let c : FwCmd := { tag := cmdTag w, word := w, running := false, seq := seq, res := res, busy := busy, idle := idle }
        { b with cmds := b.cmds ++ [c] }
    s.raise (evInEmpty k) 0 0 0

def execFwTake (k : Mb) (s : State) : Host.Outcome State Fault Refusal := .next (s.fwTake k)

/-- R346. -/
def Answer.word (a : Answer) : Word := fwIdent ++ a.opcode ++ a.tag ++ a.status ++ a.result

/-- R391, R393: what follows from posting an answer that a reset waits for. -/
def State.postedReset (s : State) (k : Mb) (a : Answer) : State :=
  match s.fw.resetAsks.find? fun x => x.1 == k && x.2.1 == a.tag && resetAnswer a.opcode a.status with
  | none => s
  | some (_, _, true) =>
    let now := s.now
    s.updFw fun f => { f with resetAt := some (f.resetAt.getD now) }
  | some (_, _, false) =>
    if a.opcode = 0x69 then
      (s.updFw fun f => { f with commitOn := some k, commitHdr := f.staged }).pririRestart 3
    else s.pririRestart 2

/-- R348, R351: firmware posts the first waiting answer or notice; its hold of the window has ended. An answer after which
Priri restarts waits for the end of a reset that would absorb the restart (R26; log entry 54, DEDUCED). -/
def State.fwPost (s : State) (k : Mb) : State :=
  let b := s.mb k
  match b.answers with
  | [] => s
  | a :: r =>
    if !s.fwRuns || b.outFull || (resetAnswer a.opcode a.status && s.fw.resetAsks.contains (k, a.tag, false) && s.widerReset) then s
    else
      let s := s.releaseWindow k
      let s := s.updMb k fun b =>
        { b with answers := r, out := a.word, outFull := true, posted := if a.opcode = 0x7F then b.posted else b.posted ++ [a.tag] }
      (s.raise (evOutFull k) 0 0 0).postedReset k a

def execFwPost (k : Mb) (s : State) : Host.Outcome State Fault Refusal := .next (s.fwPost k)

/-- R393: 1 ms after the answer was posted. -/
def State.warmResetDelayExpiry (s : State) : State :=
  match s.fw.resetAt with
  | none => s
  | some t => ((s.advance (t + 1000000)).updFw fun f => { f with resetAt := none }).startWarm 2

def execWarmResetDelayExpiry (s : State) : Host.Outcome State Fault Refusal := .next s.warmResetDelayExpiry

/-! ## Window holds (R354) -/

/-- R354: firmware begins a hold of the window, or ends the one it has. -/
def State.windowHold (s : State) (k : Mb) : State :=
  if !s.fwRuns then s
  else if (s.mb k).winFw then s.releaseWindow k
  else
    let now := s.now
    s.updMb k fun b => { b with winFw := true, holdAt := now }

def execWindowHold (k : Mb) (s : State) : Host.Outcome State Fault Refusal := .next (s.windowHold k)

/-- R354: 50 us after its start a hold ends, and the accesses that wait are performed. -/
def State.windowWaitExpiry (s : State) (k : Mb) : State :=
  let b := s.mb k
  if b.winFw then (s.advance (b.holdAt + 50000)).releaseWindow k else s

def execWindowWaitExpiry (k : Mb) (s : State) : Host.Outcome State Fault Refusal := .next (s.windowWaitExpiry k)

/-! ## Binding (R343) -/

/-- R343: what is in progress for a channel goes on, and owes it no answer and no notice. -/
def State.disown (s : State) (k : Mb) : State :=
  let mine := fun (x : Option (Mb × BitVec 2)) => x.any fun y => y.1 == k
  let s := s.mapChan fun _ c =>
    { c with repair := c.repair.map fun r => if mine r.by_ then { r with by_ := none } else r,
             resetBy := c.resetBy.filter fun x => x.1 != k }
  let s := s.updFuse fun f => { f with cmd := f.cmd.map fun c => if mine c.by_ then { c with by_ := none } else c }
  let s := s.updScrub fun b => if b.mb = some k then { b with mb := none, held := false } else b
  s.updFw fun f =>
    { f with laneJobs := f.laneJobs.map fun j => if j.mb = some k then { j with mb := none } else j,
             twinJobs := f.twinJobs.map fun j => if mine j.by_ then { j with by_ := none } else j,
             remapJobs := f.remapJobs.map fun j => if mine j.by_ then { j with by_ := none } else j, resetAsks := f.resetAsks.filter fun x => x.1 != k }

/-- R343: a change of binding of one of MB0 to MB15. -/
def State.rebind (s : State) (k : Mb) (owner : Option Ident) : State :=
  let s := s.releaseWindow k
  let s := if (s.mb k).inFull then s.raise (evInEmpty k) 0 0 0 else s
  (s.updMb k fun _ => { owner := owner }).disown k

end Sys2Proof.Machine
end

