-- ==== Sys2Proof/Machine/Boot.lean ====
section
/-! DEFINITION. Cold and warm boot, BIST and the stagger grant, training and identity of the core dies, image delivery and
verification (chapter 15, R431 to R445, R452 to R457; R100, R110, R120, R245, R287 to R289, R482, R483). -/

namespace Sys2Proof.Machine

def State.toPh (s : State) (ph : BootPh) : State := s.updBoot fun b => { b with ph := ph }

/-! ## The boot reading ends (R445, R239, R421) -/

/-- R421: a boot record goes to the log. -/
def State.bootRecord (s : State) (code : Nat) (w1 : Word) : State :=
  (s.queuePkt { type := 3, words := [w32 code, w1] }).logPacketWrite

/-- Word 1 of a boot record. -/
def bootWord (region off : Nat) (temp : BitVec 8) : Word := BitVec.ofNat 8 region ++ temp ++ BitVec.ofNat 16 off

/-- R446: the word has a shadow. -/
def Fuses.shadowed (f : Fuses) (a : Nat) : Bool := (f.shadow (fuseRegion a) (a - fuseBase (fuseRegion a))).isSome

/-- R445: the first word that raises the alarm, if any: an unusable one, or a MARGINAL one of region 4 or 5. -/
def Fuses.badWord (f : Fuses) : Option Nat :=
  (List.range 1049).find? fun a =>
    !f.shadowed a && (f.unusable.contains a || (f.marginal.contains a && (fuseRegion a == 4 || fuseRegion a == 5)))

/-- R443: regions whose CRC is checked, and fails. -/
def Fuses.crcFails (f : Fuses) : BitVec 8 :=
  BitVec.ofNat 8 (((List.range 7).map fun r =>
    if (f.lockBlown r || f.raw (crcAddr r) != 0) && !f.crcOk r then 2 ^ r else 0).sum)

def Fuses.lockBits (f : Fuses) : BitVec 8 :=
  BitVec.ofNat 8 (((List.range 8).map fun r => if f.lockBlown r then 2 ^ r else 0).sum)

/-- R239, R241: the field-repair records that boot skips. -/
def Fuses.skipped (f : Fuses) : List Nat :=
  (List.range 128).filter fun i =>
    match f.data (784 + 2 * i), f.data (785 + 2 * i) with
    | some w0, some _ => decide (4 < (recType w0).toNat)
    | _, _ => true

/-- R445: the boot reading starts. -/
def State.startReading (s : State) : State :=
  ((s.updBoot fun b => { b with readAt := 0 }).updFuse fun f =>
    { f with marginal := [], unusable := [], crcBad := 0, first := none }).fuseGo

/-- R445: every word has been read, or has been given up (R484). -/
def State.fusesRead (s : State) : Bool := decide (1049 ≤ s.boot.readAt)

/-- R445: MARGINAL words are recorded, with the temperature of this boot. -/
def State.recordMarginal (s : State) (a : Nat) : State :=
  s.bootRecord 2 (bootWord (fuseRegion a) (a - fuseBase (fuseRegion a)) s.mgmt.fuse.bootTemp)

/-- R445, R446: the trims of AON and of the sensors and the SRAM repairs that the words read give; a channel and a module
take theirs at their training. -/
def Fuses.takeUp (f : Fuses) : Fuses :=
  { f.takeTrims (fun i => decide (i < 8) || decide (84 ≤ Config.trimUnit i)) with
    repairs := ((List.range 511).filterMap (f.value 2)).filter repairWord }

/-- R445: every word has been read; `cold`: only a cold boot clears an alarm. -/
def State.bootFuses (s : State) (cold : Bool) : State :=
  let (t, s) := s.drawBits 8
  let s := s.updFuse fun f =>
    let f := f.takeUp
    { f with bootTemp := t, locked := f.lockBits, factory := !f.lockBlown 7, crcBad := f.crcFails }
  let f := s.mgmt.fuse
  let alarm := f.badWord.isSome || f.crcBad != 0
  let s := s.updFuse fun f => { f with alarm := alarm || (!cold && f.alarm) }
  let s := f.marginal.foldl State.recordMarginal s
  let s := f.skipped.foldl (fun s i => s.bootRecord 3 (bootWord 6 i 0)) s
  if !alarm then s
  else
    let a := f.badWord.getD (crcAddr (((List.range 7).find? f.crcBad.getLsbD).getD 0))
    let s := s.bootRecord 1 (bootWord (fuseRegion a) (a - fuseBase (fuseRegion a)) 0)
    s.raiseG 350 0 s.mgmt.fuse.status

/-! ## Image headers and their verification (R390, R436 to R441) -/

def leNat : List Byte → Nat
  | [] => 0
  | b :: r => b.toNat + 256 * leNat r
def bytesAt (l : List Byte) (a n : Nat) : Nat := leNat ((l.drop a).take n)
def bytesOf (n v : Nat) : List Byte := (List.range n).map fun i => BitVec.ofNat 8 (v / 256 ^ i)

/-- R390: the 440-byte header. -/
def imgHdr (l : List Byte) : ImgHdr :=
  { len := bytesAt l 0 4, slot := BitVec.ofNat 2 (bytesAt l 4 1), secVer := BitVec.ofNat 16 (bytesAt l 6 2),
    digest := BitVec.ofNat 384 (bytesAt l 8 48), merKey := BitVec.ofNat 768 (bytesAt l 0x38 96),
    merSig := BitVec.ofNat 768 (bytesAt l 0x98 96), ownKey := BitVec.ofNat 768 (bytesAt l 0xF8 96),
    ownSig := BitVec.ofNat 768 (bytesAt l 0x158 96) }

/-- R390: lengths, owner slots and reserved bits that are refused; an owner key or signature that is not zero with owner slot 0 is
accepted (log entry 76, DESIGN CHOICE). -/
def hdrBad (l : List Byte) : Bool :=
  let n := bytesAt l 0 4
  n == 0 || decide (524288 < n) || n % 4 != 0 || bytesAt l 4 1 % 4 == 3 || bytesAt l 4 2 / 4 != 0

/-- A key digest of region 4: slot 0 Merrov, 1 and 2 the owner slots; none where a word cannot be used. -/
def Fuses.digest (f : Fuses) (slot : Nat) : Option (BitVec 384) :=
  let ws := (List.range 12).map fun i => f.value 4 (12 * slot + i)
  if ws.any Option.isNone then none
  else some (BitVec.ofNat 384 (leNat (ws.flatMap fun w => bytesOf 4 (w.getD 0).toNat)))

/-- R445: regions 4 and 5 refuse every image. -/
def Fuses.keysBad (f : Fuses) : Bool :=
  f.crcBad.getLsbD 4 || f.crcBad.getLsbD 5 ||
    ((f.unusable ++ f.marginal).any fun a => (fuseRegion a == 4 || fuseRegion a == 5) && !f.shadowed a)

/-- R390 steps 1 to 3, R438: the keys and signatures of a header. -/
def Fuses.signed (f : Fuses) (h : ImgHdr) : Bool :=
  let keyOk := fun (slot : Nat) (key sig : BitVec 768) =>
    f.digest slot == some (Config.sha384 (bytesOf 96 key.toNat)) && Config.ecdsaVerify key h.digest sig
  let owned := f.digest 1 != some 0 || f.digest 2 != some 0
  keyOk 0 h.merKey h.merSig &&
    (!owned || (h.slot != 0 && h.slot != 3 && f.digest h.slot.toNat != some 0 && keyOk h.slot.toNat h.ownKey h.ownSig))

/-- R441: the protected length that an image declares. -/
def protLenOf (img : List Byte) : Nat := bytesAt img 0 4
def protOk (img : List Byte) : Bool :=
  decide (4 ≤ protLenOf img) && decide (protLenOf img ≤ img.length) && protLenOf img % 4 == 0

/-- A memory from its bytes. -/
def cellsOf (a : Nat) : List Byte → List Host.Cell
  | [] => []
  | b :: r => if b = 0 then cellsOf (a + 1) r else (a, b) :: cellsOf (a + 1) r

/-- R438: what the verification of the stream decides: done's status. -/
def State.verdict (s : State) : Nat :=
  let st := s.boot.stream
  let h := imgHdr st
  let img := st.drop 440
  let differs := fun (c : ImgHdr) => c.len != h.len || c.digest != h.digest
  if s.mgmt.fuse.keysBad then 0x14
  else if s.fw.commitHdr.any differs then 0x16
  else if decide (st.length < 440) || hdrBad st || img.length != h.len || Config.sha384 img != h.digest || !s.mgmt.fuse.signed h
      || decide (h.secVer.toNat < s.fw.versionFloor.toNat) || !protOk img then 0x13
  else 3

/-- R438, R441: the ROM starts the image of the stream. -/
def State.loadImage (s : State) : State :=
  let st := s.boot.stream
  let h := imgHdr st
  let img := st.drop 440
  let n := protLenOf img
  s.updFw fun f =>
    { f with running := h, versionFloor := h.secVer, protLen := n, protDigest := Config.sha384 (img.take n), sram := cellsOf 0 img }

/-! ## READY (R432, R436) -/

/-- R436: the staging windows return to their channels, cleared. -/
def State.closeStaging (s : State) : State :=
  (s.mapMb fun k b => if k.val < 16 then { b with win := [] } else b).updBoot fun b =>
    { b with stageOpen := false, deliverer := none, stream := [], verifying := false }

/-- R432: firmware reports READY. -/
def State.ready (s : State) : State := (s.closeStaging.updFw fun f => { f with started := false }).setFwSt .ready

/-- R391: an image that FW_COMMIT asked for runs. -/
def State.commitDone (s : State) : State :=
  let s := s.ready
  match s.fw.commitOn with
  | some k => (s.notice k 3 stOK).updFw fun f => { f with commitOn := none, commitHdr := none }
  | none => s

/-! ## Image delivery (R436 to R440) -/

def doneWord (status : Nat) (seq : BitVec 16) : Word := w32 (fld 16 status + seq.toNat)

/-- R439: the delivery ends with this status. -/
def State.endDelivery (s : State) (status : Nat) : State :=
  s.updBoot fun b =>
    { b with deliverer := none, stream := [], verifying := false, done := doneWord status (b.done.extractLsb' 0 16) }

/-- R391, R438: the ROM becomes the loader. -/
def State.toLoader (s : State) : State :=
  let s := s.setFwSt .loader
  let s := if s.boot.ph == .cold 10 then s.toPh (.cold 9) else s
  match s.fw.commitOn with
  | some k => s.notice k 3 stVERIFY
  | none => s

/-- Channels that a boot trains (R40, R110). -/
def State.trainable (s : State) : List Ch :=
  allCh.filter fun n => s.chUsable n && !s.map.lost.getLsbD n.val

/-- R287: the training of a group of channels starts. -/
def State.startGroup (s : State) (g : Nat) : State :=
  (s.trainable.filter fun n => n.val / 8 == g).foldl (fun s n => s.updChan n fun c => { c with train := 1 }) s

/-- R438: verification has ended. -/
def State.imageVerifyDone (s : State) : State :=
  if !s.boot.verifying then s
  else
    let v := s.verdict
    if v = 3 then
      let s := (s.loadImage).endDelivery 3
      let s := (s.setFwSt .rom).updBoot fun b => { b with stageOpen := false }
      match s.boot.ph with
      | .cold _ => ((s.updFw fun f => { f with started := true }).toPh (.cold 11)).startGroup 0
      | .warm _ => (s.updFw fun f => { f with started := true }).toPh (.warm 6)
      | .up => s.commitDone
      | .off => s
    else (s.endDelivery v).toLoader

def execImageVerifyDone (s : State) : Host.Outcome State Fault Refusal := .next s.imageVerifyDone

/-- A word and bytes of the staging window (R436). -/
def State.stageWord (s : State) (a : Nat) : Word := s.winWord (Fin.ofNat 24 (a / 0x1000)) (a % 0x1000)
def State.stageBytes (s : State) (n : Nat) : List Byte :=
  (List.range n).map fun i => s.winByte (Fin.ofNat 24 ((0x40 + i) / 0x1000)) ((0x40 + i) % 0x1000)

/-- R437: the status of a block of `len` bytes at `off` after the stream `st`, with the bytes `d`: 0x01 accepted. -/
def blockStatus (st d : List Byte) (len off : Nat) : Nat :=
  let st' := st ++ d
  if len % 4 ≠ 0 ∨ len < 4 ∨ 65472 < len ∨ off ≠ st.length then 0x10
  else if 524728 < st'.length then 0x11
  else if 440 ≤ st'.length ∧ hdrBad st' = true then 0x12
  else if 440 ≤ st'.length ∧ bytesAt st' 0 4 + 440 < st'.length then 0x11
  else 1

/-- R437, R439: a go write of the deliverer. -/
def State.stagingGo (s : State) (who : Ident) (v : Word) : State :=
  let b := s.boot
  let seq := v.extractLsb' 0 16
  let want : BitVec 16 := if b.deliverer.isSome then b.done.extractLsb' 0 16 + 1 else 1
  if !b.stageOpen || b.verifying || seq = 0 || seq ≠ want then s
  else
    let now := s.now
    let len := (s.stageWord 4).toNat
    let d := s.stageBytes (min len 65472)
    let st := blockStatus b.stream d len (s.stageWord 8).toNat
    let last := v.getLsbD 16
    if st ≠ 1 then
      s.updBoot fun b => { b with deliverer := some (b.deliverer.getD who), done := doneWord st seq,
                                  acceptedAt := if b.deliverer.isSome then b.acceptedAt else now }
    else
      s.updBoot fun b =>
        { b with deliverer := some (b.deliverer.getD who), stream := b.stream ++ d, acceptedAt := now,
                 done := doneWord (if last then 2 else 1) seq, verifying := last,
                 ph := if last && b.ph == .cold 9 then .cold 10 else b.ph }

/-- R439: 100 ms without an accepted block. -/
def State.deliveryTimeout (s : State) : State :=
  let b := s.boot
  if b.deliverer.isNone || b.verifying then s
  else (s.advance (b.acceptedAt + 100000000)).updBoot fun b => { b with deliverer := none, stream := [], done := 0 }

def execDeliveryTimeout (s : State) : Host.Outcome State Fault Refusal := .next s.deliveryTimeout

/-! ## BIST groups (R452 to R455) -/

def groupCh (g : Nat) : List Ch := (List.range 8).map fun i => Fin.ofNat 64 (8 * g + i)

/-- R457: the block is tested: a factory launch may leave it out. -/
def Boot.selects (b : Boot) (bit : Nat) : Bool := match b.launch with
  | none => true
  | some m => m.getLsbD bit

def setBit {w : Nat} (v : BitVec w) (i : Nat) (b : Bool) : BitVec w :=
  if b then v ||| BitVec.twoPow w i else v &&& ~~~(BitVec.twoPow w i)

/-- R110, R455: the result of a channel. -/
def State.bistCh (s : State) (n : Ch) (pass : Bool) : State :=
  if !s.boot.selects n.val then s
  else
    (s.updBoot fun b => { b with bistCh := setBit b.bistCh n.val pass, opens := b.opens.filter (·.1 != n) }).updMap fun m =>
      { m with bistFail := setBit m.bistFail n.val !pass, lost := setBit m.lost n.val false }

/-- R452: the continuity failures of a channel are kept for its training. -/
def State.bistOpen (s : State) (n : Ch) (x : OpenLane) : State :=
  if s.boot.selects n.val then s.updBoot fun b => { b with opens := b.opens ++ [(n, x.pc, x.lane)] } else s

/-- R455: the result of a module. -/
def State.bistMod (s : State) (m : Mod) (pass : Bool) : State :=
  if !s.boot.selects (64 + m.val) then s else s.updBoot fun b => { b with bistMod := setBit b.bistMod m.val pass }

/-- R40, R453: domains of the group without a passing block are switched off. -/
def State.groupPower (s : State) (g : Nat) : State :=
  let s := (groupMod g).foldl (fun s m =>
    let pass := s.boot.bistMod.getLsbD m.val
    let s := s.updHlm m fun h => { h with usable := pass, link := if pass then h.link else .unusable }
    if pass then s else s.offDom (modDom m)) s
  [2 * g, 2 * g + 1].foldl (fun s q => if s.domUsable (quadDom q) then s else s.offDom (quadDom q)) s

/-- R454: the request for the next group is raised. -/
def State.stagRaise (s : State) : State :=
  let now := s.now
  if s.boot.ph == .cold 7 && decide (s.boot.group < 8) && !s.boot.stagReq then
    s.updBoot fun b => { b with stagReq := true, stagAt := now }
  else s

/-- The group in hand has ended: the request falls; the next is raised once the grant is low. -/
def State.groupEnd (s : State) : State :=
  let s := s.groupPower s.boot.group
  let s := s.updBoot fun b => { b with groupRun := false, stagReq := false, group := b.group + 1, bistValid := b.bistValid || b.group == 7 }
  if s.boot.stagGnt then s else s.stagRaise

/-- R453, R454: the grant is seen: the group starts; its domains power up, step by step (R320). -/
def State.staggerGrant (s : State) : State :=
  let b := s.boot
  if b.ph != .cold 7 || !b.stagReq || b.groupRun then s.updBoot fun b => { b with stagGnt := true }
  else
    let now := s.now
    (s.updPwr fun p => { p with upAt := now }).updBoot fun b => { b with stagGnt := true, groupRun := true }

def execStaggerGrant (s : State) : Host.Outcome State Fault Refusal := .next s.staggerGrant

/-- R454: the grant is low, or 1 us of a grant tied high has passed. -/
def execStaggerGrantLow (s : State) : Host.Outcome State Fault Refusal :=
  .next ((s.updBoot fun b => { b with stagGnt := false }).stagRaise)

/-- R454: the group is not run, and its blocks are failed. -/
def State.staggerGrantTimeout (s : State) : State :=
  let b := s.boot
  if b.ph != .cold 7 || !b.stagReq || b.groupRun then s
  else
    let s := s.advance (b.stagAt + 1000000000)
    let s := (groupCh b.group).foldl (fun s n => s.bistCh n false) s
    ((groupMod b.group).foldl (fun s m => s.bistMod m false) s).groupEnd

def execStaggerGrantTimeout (s : State) : Host.Outcome State Fault Refusal := .next s.staggerGrantTimeout

/-- R320, R453: every domain of the group in hand is on. -/
def State.groupOn (s : State) : Bool := (groupDoms s.boot.group).all fun d => s.domOn d

/-- R452, R453: the results of a group, once its domains have come up. -/
def State.bistGroupDone (s : State) (chFail : BistChans) (modFail : BitVec 3) : State :=
  let b := s.boot
  if !b.groupRun || !s.groupOn then s
  else
    let chOf := fun (i : Nat) => (Fin.ofNat 64 (8 * b.group + i) : Ch)
    let s := (List.range 8).foldl (fun s i => s.bistCh (chOf i) !(chFail.fail.getLsbD i)) s
    let s := chFail.opens.foldl (fun s x => s.bistOpen (chOf x.i.val) x) s
    let ms := groupMod b.group
    let s := (List.range ms.length).foldl (fun s i => s.bistMod (ms.getD i 0) !(modFail.getLsbD i)) s
    (s.updBoot fun b => { b with groupsRun := b.groupsRun + 1 }).groupEnd

def execBistGroupDone (chFail : BistChans) (modFail : BitVec 3) (s : State) : Host.Outcome State Fault Refusal :=
  .next (s.bistGroupDone chFail modFail)

/-- R455: failed blocks, training included. -/
def State.failedBlocks (s : State) : Nat :=
  countBits (s.map.bistFail ||| s.map.trainFail) + (20 - countBits s.boot.bistMod) + (if s.boot.bistMgmt = 3 then 0 else 1)

/-! ## Training of the channels (R287 to R289) -/

/-- R288: an eye that passes: at least boot_min wide, with edges that are free (log entry 4, DESIGN CHOICE). -/
def freeEye (bootMin : Nat) (b : BitVec 16) : Eye :=
  let w := bootMin + (b.extractLsb' 0 8).toNat % (64 - bootMin)
  let left := (b.extractLsb' 8 8).toNat % (64 - w)
  { left := left, right := left + w }

/-- R290: the agreed pair of up to three triples of full measurements. -/
def bootAgree (ms : List (Option Eye)) : Option (Eye × Eye) :=
  ((agreed (ms.take 3)).orElse fun _ => agreed ((ms.drop 3).take 3)).orElse fun _ => agreed ((ms.drop 6).take 3)

/-- What training finds of one eye; a lane that the report does not list has one that passes. -/
def bootEye (bootMin : Nat) (b : BitVec 16) (ms : Option (List (Option Eye))) : Option (Eye × Eye) :=
  match ms with
  | none => some (freeEye bootMin b, freeEye bootMin b)
  | some l => bootAgree l

/-- R288: the eye is at least boot_min wide. -/
def eyePass (bootMin : Nat) (e : Option (Eye × Eye)) : Bool := e.any fun p => decide (bootMin ≤ pairWidth p)

/-- R290: the tap of an agreed pair. There is no current tap at boot: which way a tie rounds is free (log entry 4, DESIGN
CHOICE). -/
def bootTap (b : BitVec 6) (e : Option (Eye × Eye)) : BitVec 6 := match e with
  | some p => tapOf b.toNat p
  | none => 0

def lastEye (e : Option (Eye × Eye)) : Eye := match e with
  | some p => p.2
  | none => ⟨0, 0⟩

/-- T4 to T6: a data lane; it passes where the read eye does on a sampler, and the write eye. Which sampler is chosen where
both pass is free (log entry 4, DESIGN CHOICE). -/
def Lane.boot (l : Lane) (bootMin : Nat) (b : BitVec 64) (m : Option LaneMeas) : Lane :=
  let ea := bootEye bootMin (b.extractLsb' 0 16) (m.map (·.a))
  let eb := bootEye bootMin (b.extractLsb' 16 16) (m.map (·.b))
  let et := bootEye bootMin (b.extractLsb' 32 16) (m.map (·.tx))
  let selB := eyePass bootMin eb && (!eyePass bootMin ea || b.getLsbD 63)
  let cur := if selB then eb else ea
  { l with
    samplerB := selB, rxTap := bootTap (b.extractLsb' 48 6) cur, txTap := bootTap (b.extractLsb' 54 6) et,
    width := BitVec.ofNat 6 (cur.elim 0 pairWidth), disagree := 0, goodPauses := 0,
    trained := (eyePass bootMin ea || eyePass bootMin eb) && eyePass bootMin et,
    eyeA := lastEye ea, eyeB := lastEye eb, eyeT := lastEye et }

/-- T2: a command lane, by its loopback eye. -/
def Lane.bootCmd (l : Lane) (bootMin : Nat) (b : BitVec 64) (m : Option LaneMeas) : Lane :=
  let et := bootEye bootMin (b.extractLsb' 32 16) (m.map (·.tx))
  { l with
    txTap := bootTap (b.extractLsb' 54 6) et, width := BitVec.ofNat 6 (et.elim 0 pairWidth), disagree := 0,
    trained := eyePass bootMin et, eyeT := lastEye et }

/-- What the report says of a lane; one that has failed the continuity test comes to training as a failed lane, with no eye
(R452). -/
def bootLaneOf (opens : List (Ch × Option Pc × Nat)) (r : BootReport) (n : Ch) (p : Option Pc) (k : Nat) : Option LaneMeas :=
  if opens.contains (n, p, k) then some { lane := k, a := [], b := [], tx := [] }
  else (r.lanes.find? fun x => x.n == n && x.pc == p && x.meas.lane == k).map (·.meas)

/-- The roles with which the training of a group starts (R305): spares in service stay so (R286). -/
def LaneGroup.startRoles (g : LaneGroup) : LaneGroup :=
  { g with
    marks := 0
    lanes := Vector.ofFn fun i =>
      let l := g.lanes.get i
      let spare := g.spares.get (Fin.ofNat 2 (i.val - 36))
      { l with role :=
          if i.val < 36 then (if (g.carrier i.val).isSome then 2 else 0)
          else if spare.en then 3 else if spare.failed then 2 else 1 } }

def Chan.startCmdRoles (c : Chan) : Chan :=
  { c with
    cmdLane := Vector.ofFn fun i =>
      let l := c.cmdLane.get i
      let spare := c.csp.get (Fin.ofNat 2 (i.val - 18))
      { l with role :=
          if i.val < 18 then (if c.csp.toList.any fun x => x.en && x.lane.toNat == i.val then 2 else 0)
          else if spare.en then 3 else if spare.failed then 2 else 1 } }

/-- R286: a data spare takes over a logical lane; its dies are told at the end of the training (Chan.tellDies). -/
def LaneGroup.useSpare (g : LaneGroup) (i : Fin 2) (lane : Nat) : LaneGroup :=
  if (g.spares.get i).en || (g.spares.get i).failed || decide (36 ≤ lane) then g
  else
    let g := g.retire lane
    { g with
      spares := upd g.spares i fun _ => { en := true, lane := BitVec.ofNat 6 lane, failed := false },
      lanes := upd (upd g.lanes (Fin.ofNat 38 (36 + i.val)) fun l => { l with role := 3 }) (Fin.ofNat 38 lane) fun l =>
        { l with role := 2 } }

/-- A command spare takes over a command lane. -/
def Chan.useCsp (c : Chan) (i : Fin 2) (lane : Nat) : Chan :=
  if (c.csp.get i).en || (c.csp.get i).failed || decide (18 ≤ lane) then c else c.putCsp i lane

/-- R442: what a word of region 1 says of the data spares of its group. -/
def LaneGroup.region1 (g : LaneGroup) (w : Word) : LaneGroup :=
  let g := if w.getLsbD 31 then g.useSpare 0 (w.extractLsb' 24 6).toNat else g
  if w.getLsbD 23 then g.useSpare 1 (w.extractLsb' 16 6).toNat else g

/-- R442: what a word of region 1 says of the command spare with the number of its pseudo-channel. -/
def Chan.region1Cmd (c : Chan) (i : Fin 2) (w : Word) : Chan :=
  if w.getLsbD 15 then c.useCsp i (w.extractLsb' 8 5).toNat else c

/-- Lane and spare of a LANE record (R241). -/
def recLane (w1 : Word) : Nat := (w1.extractLsb' 22 6).toNat
def recSpare (w1 : Word) : Fin 2 := Fin.ofNat 2 (w1.extractLsb' 20 2).toNat

/-- R287: the LANE records of data lanes are applied as written, those of the command buses to the narrowest lane. -/
def LaneGroup.laneRecord (g : LaneGroup) (w1 : Word) : LaneGroup :=
  if recLane w1 < 36 then g.useSpare (recSpare w1) (recLane w1) else g
def Chan.cmdRecord (c : Chan) (w1 : Word) : Chan :=
  if recLane w1 < 36 then c
  else
    match c.narrowest (some (recLane w1)) with
    | some k => c.useCsp (recSpare w1) k
    | none => c

/-- The physical lane that carries a logical one. -/
def LaneGroup.physOf (g : LaneGroup) (lane : Nat) : Fin 38 := match g.carrier lane with
  | some i => Fin.ofNat 38 (36 + i.val)
  | none => Fin.ofNat 38 lane

/-- R288: spares whose eyes fail cannot be used; failed lanes take the free ones, the lowest-numbered lane first; a lane
without one is marked. -/
def LaneGroup.replace (g : LaneGroup) : LaneGroup :=
  let g := (List.finRange 2).foldl (fun (g : LaneGroup) i =>
    if (g.spares.get i).en || (g.lanes.get (Fin.ofNat 38 (36 + i.val))).trained then g
    else
      { g with spares := upd g.spares i fun x => { x with failed := true },
               lanes := upd g.lanes (Fin.ofNat 38 (36 + i.val)) fun l => { l with role := 2 } }) g
  (List.range 36).foldl (fun (g : LaneGroup) lane =>
    if (g.lanes.get (g.physOf lane)).trained then g
    else
      match g.freeSpare with
      | some i => g.useSpare i lane
      | none =>
        { g with marks := setBit g.marks lane true, lanes := upd g.lanes (Fin.ofNat 38 lane) fun l => { l with role := 2 } }) g

/-- R288: the same for the command lanes; true where a failed one is left without a spare. -/
def Chan.replaceCmd (c : Chan) : Chan × Bool :=
  let c := (List.finRange 2).foldl (fun (c : Chan) i =>
    if (c.csp.get i).en || (c.cmdLane.get (Fin.ofNat 20 (18 + i.val))).trained then c
    else
      { c with csp := upd c.csp i fun x => { x with failed := true },
               cmdLane := upd c.cmdLane (Fin.ofNat 20 (18 + i.val)) fun l => { l with role := 2 } }) c
  (List.range 18).foldl (fun (acc : Chan × Bool) lane =>
    let c := acc.1
    if (c.cmdPhys lane).trained then acc
    else
      match c.freeCsp with
      | some i => (c.useCsp i lane, acc.2)
      | none => (c, true)) (c, false)

/-- Failed data lanes left without a spare. -/
def LaneGroup.marked (g : LaneGroup) : Nat := (List.range 36).countP g.marks.getLsbD

/-- R288: the outcome of a training; a failure is reported, and takes the channel out of the map (R110). -/
def State.trained (s : State) (n : Ch) (ok : Bool) : State :=
  let s := (s.updChan n fun c => { c with train := if ok then 2 else 3 }).updMap fun m =>
    { m with trainFail := setBit m.trainFail n.val !ok }
  if ok then s else s.raise (evLane n) 0xB 0 0

/-- T1: ZRST_n is released where the PHY held it: the dies have been reset, in command loopback (R282, R284). The beat
alignment found is free (log entry 4, DESIGN CHOICE). -/
def State.t1 (s : State) (n : Ch) : State :=
  let (a, s) := s.drawBits 6
  let (b, s) := s.drawBits 6
  let now := s.now
  s.updChan n fun c =>
    let c := if c.zrstN then c else { c with zrstN := true, dies := c.dies.map (·.zreset now) }
    { c with pc := Vector.ofFn fun p => { c.pc.get p with align := if p = 0 then a else b } }

/-- Fresh draws for `k` lanes. -/
def State.drawLanes (s : State) (k : Nat) : List (BitVec 64) × State :=
  (List.range k).foldl (fun (acc : List (BitVec 64) × State) _ =>
    let (b, s) := acc.2.drawBits 64
    (acc.1 ++ [b], s)) ([], s)

/-- T2: command lanes; true where one has failed without a spare. -/
def State.t2 (s : State) (r : BootReport) (n : Ch) : State × Bool :=
  let (bs, s) := s.drawLanes 20
  let f := s.mgmt.fuse
  let recs := f.applied.filter fun x => recType x.1 == recLANE && recChan x.1 == n
  let w1 := fun (p : Pc) => (f.value 1 (2 * n.val + p.val)).getD 0
  let c := (s.chan.get n).startCmdRoles
  let c := { c with cmdLane := Vector.ofFn fun i =>
    (c.cmdLane.get i).bootCmd c.cfg.bootMin (bs.getD i.val 0) (bootLaneOf s.boot.opens r n none i.val) }
  let (c, bad) := ((c.region1Cmd 0 (w1 0)).region1Cmd 1 (w1 1)).replaceCmd
  (s.updChan n fun _ => recs.foldl (fun c x => c.cmdRecord x.2) c, bad)

/-- T3: the identity registers of the dies of a channel, out of loopback. -/
def State.t3 (s : State) (r : BootReport) (n : Ch) : State :=
  let now := s.now
  s.updChan n fun c =>
    { c with dies := Vector.ofFn fun i =>
        let found := r.dies.find? fun d => d.n == n && d.sid == i
        ((c.dies.get i).put now 0x78 0).identify ((found.map (·.mr)).getD []) }

/-- T3 to T6: the data lanes of a pseudo-channel, records first. -/
def State.t46 (s : State) (r : BootReport) (n : Ch) (p : Pc) : State :=
  let (bs, s) := s.drawLanes 38
  let f := s.mgmt.fuse
  let opens := s.boot.opens
  let recs := f.applied.filter fun x =>
    recType x.1 == recLANE && recChan x.1 == n && (x.1.extractLsb' 20 1).toNat == p.val
  s.updChan n fun c => c.updPc p fun g =>
    let g := g.startRoles.region1 ((f.value 1 (2 * n.val + p.val)).getD 0)
    let g := recs.foldl (fun g x => g.laneRecord x.2) g
    let g := { g with lanes := Vector.ofFn fun i =>
      (g.lanes.get i).boot c.cfg.bootMin (bs.getD i.val 0) (bootLaneOf opens r n (some p) i.val) }
    g.replace

/-- R286: the dies of a channel are told of the spares in service. -/
def Chan.tellDies (c : Chan) (now : Nat) : Chan :=
  let word := fun (x : Spare) => if x.en then BitVec.ofNat 8 (128 + x.lane.toNat) else (0 : BitVec 8)
  { c with dies := c.dies.map fun d =>
      let d := (List.finRange 2).foldl (fun (d : Die) p => (List.finRange 2).foldl (fun (d : Die) i =>
        d.put now (0x60 + 2 * p.val + i.val) (word ((c.pc.get p).spares.get i))) d) d
      (List.finRange 2).foldl (fun (d : Die) i => d.put now (0x64 + i.val) (word (c.csp.get i))) d }

/-- R287, R288: a full training of a channel. -/
def State.trainFull (s : State) (r : BootReport) (n : Ch) : State :=
  let s := s.updFuse fun f => f.takeTrims (trimsOf (20 + n.val))
  let (s, cmdBad) := (s.t1 n).t2 r n
  let s := (((s.t3 r n).t46 r n 0).t46 r n 1).updChan n (·.tellDies s.now)
  -- R303: marked lanes without a spare
  let s := ([0, 1] : List Pc).foldl (fun s p => if ((s.chan.get n).pc.get p).marked = 0 then s else s.noSpare n p) s
  let open_ := fun (p : Pc) => decide (1 < ((s.chan.get n).pc.get p).marked)
  s.trained n (!(cmdBad || open_ 0 || open_ 1 || r.t7bad.getLsbD n.val))

/-! ## Core-die identity and the map (R100, R117, R120, R110) -/

/-- R120: a refused die is reported, with the rule. -/
def State.reportDie (s : State) (n : Ch) (sid : SidIx) : State :=
  let d := (s.chan.get n).dies.get sid
  match d.badRule with
  | none => s
  | some i => if d.known then s.raise (evLane n) 1 (BitVec.ofNat 24 (fld 8 i + sid.val)) (w32 (d.rule i)) else s

/-- R100: complete SID groups, counted from SID0: as far as the channels that have passed training show them; 0 where
there is none (log entry 56, DESIGN CHOICE). -/
def State.nsidOf (s : State) (chs : List Ch) : Nat :=
  if chs.isEmpty then 0
  else ((List.finRange 4).takeWhile fun (i : SidIx) => chs.all fun n => ((s.chan.get n).dies.get i).ok).length

/-- The dies of a channel in use. -/
def Chan.usedDies (c : Chan) (nsid : Nat) : List Die := (c.dies.toList.take nsid).filter (·.ok)

/-- R117, R252: what a channel takes from the identities of its dies. -/
def Chan.takeIds (c : Chan) (ds : List Die) (allBank : Bool) : Chan :=
  let top := fun (i : Nat) => (ds.map (·.rule i)).foldl max 0
  { c with
    tim := { v := Vector.ofFn fun i => top i.val },
    cfg := { c.cfg with refAllBank := allBank || ds.any fun d => !d.caps.getLsbD 0 } }

/-- R442: the geometry that the fuses expect, where they do: Nsid, density, all-bank refresh. -/
def Fuses.expected (f : Fuses) : Option (Nat × Nat × Bool) :=
  match f.value 3 0 with
  | some w => if w.getLsbD 7 then some ((w.extractLsb' 5 2).toNat + 1, (w.extractLsb' 3 2).toNat, w.getLsbD 2) else none
  | none => none

/-- R442: a firmware record in the Silk log; its code and data are the firmware's own, hence free (R421; log entry 4, DESIGN
CHOICE). -/
def State.fwRecord (s : State) : State :=
  let (w, s) := s.drawBits 32
  (s.queuePkt { type := 2, words := [w] }).logPacketWrite

/-- R100, R117, R120: the identities of the trained channels set the geometry. With no die in use the density is that of the
largest (log entry 56, DESIGN CHOICE). -/
def State.readIds (s : State) : State :=
  let chs := s.trainable.filter fun n => (s.chan.get n).train == 2
  let s := chs.foldl (fun s n => (List.finRange 4).foldl (fun s i => s.reportDie n i) s) s
  let nsid := s.nsidOf chs
  let used := chs.flatMap fun n => (s.chan.get n).usedDies nsid
  let dens := (used.map (·.density)).foldl min 2
  let want := s.mgmt.fuse.expected
  let all_ := want.any (·.2.2)
  let s := if nsid = 0 then s else chs.foldl (fun s n => s.updChan n fun c => c.takeIds (c.usedDies nsid) all_) s
  let s := if want.any fun x => x.1 != nsid || x.2.1 != dens then s.fwRecord else s
  s.updMap fun m => { m with nsid := nsid, density := BitVec.ofNat 2 dens }

/-- R110: the channels that the map takes in. -/
def State.usableMask (s : State) : BitVec 64 :=
  chMask fun n => s.chUsable n && !s.map.lost.getLsbD n.val && !s.map.trainFail.getLsbD n.val

/-- R110: the map is computed. -/
def State.computeMap (s : State) : State :=
  let ok := s.usableMask
  (s.updMap fun m => { m with mapped := ok, hole := 0, trans := 0, frozen := false }).dropDoms

/-! ## Cold boot (R431) -/

/-- R234: an entry is installed for a REMAP record. -/
def Chan.installRecord (c : Chan) (l : Loc) : Chan :=
  match c.remapOf l, (List.finRange 16).find? fun i => (c.remap.get i).st == .free with
  | none, some i => { c with remap := upd c.remap i fun _ => { st := .poisoned, loc := l, pair := false, data := 0 } }
  | _, _ => c

/-- R234, R431 B12: the remap entries of a set of channels are installed as POISONED. -/
def State.installRecords (s : State) (mapped : BitVec 64) : State :=
  (s.mgmt.fuse.applied.filter fun x => recType x.1 == recREMAP && mapped.getLsbD (recChan x.1).val).foldl (fun s x =>
    s.updChan (recChan x.1) fun c => c.installRecord (recLoc x.1 x.2)) s

/-- The end of B12: the map, the remap entries, and the end of the initialisation of every mapped channel, which writes the remapped
lines too. -/
def State.initMemory (s : State) : State :=
  let s := s.computeMap
  let mapped := s.map.mapped
  let s := s.installRecords mapped
  (allCh.filter fun n => mapped.getLsbD n.val).foldl (fun s n => (s.zeroChan n).updChan n Chan.zeroRemap) s

/-- R244 step 5, R431 B12: every initialisation has written its last codeword. -/
def State.allInit (s : State) : Bool := allCh.all s.initDone

/-- B13, R455. -/
def State.coldReady (s : State) : State :=
  let s := (s.toPh .up).ready
  let n := s.failedBlocks
  let s := s.updBoot fun b => { b with launch := none }
  if n = 0 then s else s.raiseG 355 (BitVec.ofNat 24 n) 0

/-- B4: the BIST of the management SRAMs. -/
def State.bistMgmtDone (s : State) (pass : BitVec 2) : State :=
  let p := if s.boot.selects 84 then pass else s.boot.bistMgmt
  (s.updBoot fun b => { b with bistMgmt := p, mgmtOk := p == 3 }).toPh (.cold 5)

/-- B8, W4: every usable module trains its link. -/
def State.trainLinks (s : State) : State :=
  let now := s.now
  let s := s.mapHlm fun _ h => if h.usable then { h.startTraining now with link := .training } else h
  s.updFuse fun f => f.takeTrims fun i => decide (8 ≤ i) && decide (Config.trimUnit i < 20)

/-- R50, R431 B12: every channel that the map will take in has its remap entries, and its initialisation starts; the map comes into
force at READY (R432). -/
def State.startB12 (s : State) : State :=
  let ok := s.usableMask
  (allCh.filter fun n => ok.getLsbD n.val).foldl State.startInit (s.installRecords ok)

/-- R287: the training of the group in hand ends; after the last one the identities are judged. -/
def State.trainStep (s : State) (r : BootReport) : State :=
  let g := s.boot.trainGroup
  let s := (s.trainable.filter fun n => n.val / 8 == g).foldl (fun s n => s.trainFull r n) s
  if g < 7 then (s.updBoot fun b => { b with trainGroup := g + 1 }).startGroup (g + 1)
  else (((s.updBoot fun b => { b with trainGroup := 0 }).readIds).startB12).toPh (.cold 12)

/-- R431: a step of the cold boot ends; one that reads fuse words ends when the last has been read (R445, R484). -/
def State.coldStep (s : State) (k : Nat) (r : BootReport) : State :=
  match k with
  | 1 => if s.domOn 0 then ((s.toPh (.cold 2)).updBoot fun b => { b with readAt := 0 }).fuseGo else s
  | 2 => if s.boot.readAt = 24 && s.boot.rstN then s.toPh (.cold 3) else s
  | 3 => if s.mgmtOn then s.toPh (.cold 4) else s
  | 4 => (s.bistMgmtDone r.mgmtPass).startReading
  | 5 =>
    if !s.fusesRead then s
    else
      let s := (s.bootFuses true).toPh (.cold 6)
      if s.clk.refclkOk then s.pllOn else s
  | 6 =>
    if s.clk.pllLock && s.domOn 2 then
      (s.updBoot fun b => { b with ph := .cold 7, group := 0, groupRun := false, stagReq := false }).stagRaise
    else s
  | 7 => if s.boot.group < 8 then s else s.trainLinks.toPh (.cold 8)
  | 8 =>
    (s.toPh (.cold 9)).updBoot fun b =>
      { b with stageOpen := b.mgmtOk, done := if b.mgmtOk then 0 else doneWord 0x15 0, deliverer := none, stream := [] }
  | 11 => s.trainStep r
  | 12 => if s.allInit then (s.initMemory.toPh (.cold 13)).coldReady else s
  | _ => s

def State.bootStepComplete (s : State) (r : BootReport) : State :=
  match s.boot.ph with
  | .cold k => s.coldStep k r
  | .off | .warm _ | .up => s

def execBootStepComplete (r : BootReport) (s : State) : Host.Outcome State Fault Refusal := .next (s.bootStepComplete r)

/-- R433: the dies of a channel are in self-refresh: they keep what they hold. -/
def State.diesKept (s : State) (n : Ch) : Bool := (s.chan.get n).st.pwr == .selfRefresh

/-- R433, R482: everything is held in reset; fuses keep what they hold, and so do core dies in self-refresh. What the
others held is lost, and nothing reads it before B12 writes it. -/
def State.powerFail (s : State) : State :=
  { (State.reset) with
    clk := { now := s.clk.now, freeCtr := s.clk.freeCtr }
    mgmt := { fuse := { words := s.mgmt.fuse.words, ackHigh := s.mgmt.fuse.req || s.mgmt.fuse.ackHigh } }
    boot := { rstN := s.boot.rstN, stagGnt := s.boot.stagGnt }
    dram := s.dram.filter fun x => s.diesKept (Fin.ofNat 64 (x.1 / 64 / 2 ^ 25))
    poisonLines := s.poisonLines.filter fun k => s.diesKept (Fin.ofNat 64 (k / 2 ^ 25))
    pending := s.pending }

def execPwrgoodFall (s : State) : Host.Outcome State Fault Refusal := .next s.powerFail

/-- R431 B1. -/
def execPwrgoodRise (s : State) : Host.Outcome State Fault Refusal :=
  .next (if s.boot.pwrgood then s else s.updBoot fun b => { b with pwrgood := true, ph := .cold 1 })

/-! ## Warm boot (R434, R457) -/

/-- R457: a launched BIST: the cold boot from B3 on. AON and the fuses are kept; results and losses of channels that the
launch leaves out are kept. -/
def State.launchBoot (s : State) : State :=
  let b := s.boot
  let mask : BitVec 64 := (b.armed.getD 0).setWidth 64
  { (State.reset) with
    clk := { s.clk with timeBase := 0, lastRefill := 0, rate := 0 }
    pwr := (s.pwr.warmReset).offDoms s.now true
    mgmt := { fuse := { s.mgmt.fuse.warmReset with alarm := s.mgmt.fuse.alarm }, fw := { versionFloor := s.fw.versionFloor } }
    map := { bistFail := s.map.bistFail, lost := s.map.lost &&& ~~~mask }
    boot :=
      { ph := .cold 3, pwrgood := b.pwrgood, rstN := b.rstN, last := b.last, warmCnt := b.warmCnt, stagGnt := b.stagGnt,
        bistCh := b.bistCh, bistMod := b.bistMod, bistMgmt := b.bistMgmt, opens := b.opens, launch := b.armed, wir := b.wir, dr := b.dr,
        codec := b.codec }
    dram := s.dram
    poisonLines := s.poisonLines
    pending := s.pending }

/-- R408: a posted write is pending. -/
def State.postedPending (s : State) : Bool := s.mgmt.postAon.pend.isSome || s.mgmt.postTsv.toList.any fun p => p.pend.isSome

/-- R434: W2, or a launched boot, starts once W1 has ended, gh_rst_n_i is high and no posted write is pending. -/
def State.tryW2 (s : State) : State :=
  if s.postedPending || !s.boot.rstN then s
  else if s.boot.launchDue then s.launchBoot
  else if s.boot.ph == .warm 1 && s.boot.w1Done then (if s.boot.armed.isSome then s.launchBoot else s.toPh (.warm 2))
  else s

/-- R408, R457: gh_rst_n_i rises after an accepted launch, in a boot or at a release that ends no warm reset (R26): the launched boot
starts, once no posted write is pending. -/
def State.relaunch (s : State) : State :=
  if s.boot.armed.isNone then s else (s.updBoot fun b => { b with launchDue := true }).tryW2

def execRstNAssert (s : State) : Host.Outcome State Fault Refusal :=
  .next ((s.updBoot fun b => { b with rstN := false }).startWarm 1)

/-- R434, R457, R483. -/
def State.rstNRelease (s : State) : State :=
  if s.boot.rstN then s
  else
    let s := s.updBoot fun b => { b with rstN := true }
    match s.boot.ph with
    | .cold k =>
      if k ≤ 2 then (if k = 2 ∧ s.boot.readAt = 24 then s.toPh (.cold 3) else s) else s.relaunch
    | .warm 1 => s.tryW2
    | .warm _ | .up => s.relaunch
    | .off => s

def execRstNRelease (s : State) : Host.Outcome State Fault Refusal := .next s.rstNRelease

/-- R441: the retained image still verifies. -/
def State.retainedOk (s : State) : Bool :=
  let f := s.fw
  let prot := (List.range f.protLen).map fun i => memRead f.sram i
  decide (0 < f.protLen) && Config.sha384 prot == f.protDigest && !s.mgmt.fuse.keysBad && s.mgmt.fuse.signed f.running
    && decide (f.versionFloor.toNat ≤ f.running.secVer.toNat)

/-- R245: the channel that is left of a joined pair which has lost the other. -/
def State.loneOf (s : State) (c : PairIx) : Option Ch :=
  let ma := s.map.mapped.getLsbD (leader c).val
  let mb := s.map.mapped.getLsbD (follower c).val
  if !s.map.joined.getLsbD c.val || ma == mb then none else if ma then some (leader c) else some (follower c)

/-- R245, R244 steps 3 and 4: a pair that has lost a channel, or both, returns to normal mode; the refresh of the channel that is
left starts anew with its SRX (R260). -/
def State.splitPair (s : State) (c : PairIx) : State :=
  let a := leader c
  let both := s.map.mapped.getLsbD a.val && s.map.mapped.getLsbD (follower c).val
  if !s.map.joined.getLsbD c.val || both then s
  else
    let ents := splitRemap (s.chan.get a).remap
    let lone := s.loneOf c
    let s := s.updMap fun m => { m with joined := setBit m.joined c.val false }
    let s := match lone with
      | none => s
      | some n =>
        (((s.updChan n fun u => { u with remap := ents }).raise (evUnc n) 3 (BitVec.ofNat 24 (partner n).val) 0)).trimMarks n
    s.raiseG 357 (BitVec.ofNat 24 c.val) 0

/-- R289: T3 and T7, and a full training of the channels whose T7 fails; so too of those that have not passed one yet (log
entry 56, DESIGN CHOICE). -/
def State.trainWarm (s : State) (r : BootReport) (n : Ch) : State :=
  if r.retrain.getLsbD n.val || (s.chan.get n).train != 2 then s.trainFull r n else s.t3 r n

/-- R244 step 5 (R245), R434: the channels that are left of a pair have had every line written, remap lines included, and firmware
reports READY. -/
def State.warmUp (s : State) : State :=
  let lone := allCh.filter fun n => (s.chan.get n).init.isSome
  let s := lone.foldl (fun s n => (s.zeroChan n).updChan n Chan.zeroRemap) s
  (s.toPh .up).ready

/-- W6: firmware ends the warm boot. Where a pair has lost a channel the other is initialised first, and the next command ends the
step. -/
def State.warmReady (s : State) (r : BootReport) : State :=
  let s := (s.trainable.foldl (fun s n => s.trainWarm r n) s).readIds
  let s := s.computeMap
  let lone := (List.finRange 32).filterMap s.loneOf
  let s := (List.finRange 32).foldl State.splitPair s
  let s := s.liveCh.foldl State.exitSr s
  if lone.isEmpty then s.warmUp else (lone.foldl State.startInit s).toPh (.warm 7)

/-- R434: a step of the warm boot ends. -/
def State.warmStep (s : State) (k : Nat) (r : BootReport) : State :=
  match k with
  | 1 =>
    let s := if s.boot.w1Done then s else s.w1
    (s.updBoot fun b => { b with w1Done := true }).tryW2
  | 2 =>
    -- R408: W2 does not begin until no posted write is pending
    if s.postedPending then s else
    let s := s.w2
    let s := if s.clk.refclkOk then s.pllOn else s
    let now := s.now
    ((s.toPh (.warm 3)).updPwr fun p => { p with upAt := now }).startReading
  | 3 => if s.fusesRead && s.clk.pllLock && s.allUp then (s.bootFuses false).trainLinks.toPh (.warm 4) else s
  | 4 => s.toPh (.warm 5)
  | 5 =>
    if s.boot.stageOpen then s
    else if s.retainedOk then (s.updFw fun f => { f with started := true }).toPh (.warm 6)
    else (s.updFw fun f => { f with running := {}, protLen := 0, protDigest := 0, sram := [] }).updBoot fun b =>
      { b with stageOpen := true, done := 0, deliverer := none, stream := [] }
  | 6 => if s.pwr.trip then s else s.warmReady r
  | 7 => if s.allInit then s.warmUp else s
  | _ => s

def State.warmBootStepComplete (s : State) (r : BootReport) : State :=
  match s.boot.ph with
  | .warm k => s.warmStep k r
  | .off | .cold _ | .up => s

def execWarmBootStepComplete (r : BootReport) (s : State) : Host.Outcome State Fault Refusal :=
  .next (s.warmBootStepComplete r)

end Sys2Proof.Machine
end

