-- ==== Sys2Proof/Machine/Fabric.lean ====
section
/-! DEFINITION. The register fabric: checks, ownership, what each write does, aliases, posted domains, the sideband and the
Silk log's reads (chapters 03 to 05, 11, 13, 14; R395 to R411, R426, R436, R458). -/

namespace Sys2Proof.Machine

/-! ## Writes of a unit's own registers: none is a field value that the register refuses (BADFLD) -/

/-- R98, R186: fields of a module; retrain is the fabric's. -/
def Hlm.writeReg (h : Hlm) (o : Nat) (v : Word) : Option Hlm :=
  if o = 0 then
    (if v.getLsbD 1 then none else some { h with retryThresh := v.extractLsb' 16 8, maxRate := v.extractLsb' 0 2 })
  else if o = 0x20 then some { h with refuseThresh := v.extractLsb' 0 16 }
  else if 0x30 ≤ o ∧ o < 0x40 then
    let j := (o - 0x30) / 4
    let set := fun (c : Vector (BitVec 8) 16) (i : Nat) => upd c (Fin.ofNat 16 (4 * j + i)) fun _ => v.extractLsb' (8 * i) 8
    some { h with classOvh := set (set (set (set h.classOvh 0) 1) 2) 3 }
  else some h

/-- R156, R165, R166, R185, R186: fields of a port; `seq` is the order number of its module's next request. -/
def Port.writeReg (p : Port) (now seq o : Nat) (v : Word) : Option Port :=
  if o = 0 then
    (if v.extractLsb' 8 2 = 3 then none
     else
      let cls := v.extractLsb' 0 4
      some { p with
        cls := cls, clsFrom := if cls = p.cls then p.clsFrom else seq, en := v.getLsbD 4, chgMode := v.extractLsb' 8 2,
        applyPend := p.applyPend || v.getLsbD 16, hwmLat := if v.getLsbD 17 then sampleKept p.latIn now else p.hwmLat })
  else if o = 4 then
    let cir := v.extractLsb' 0 16
    let pir := v.extractLsb' 16 16
    if 16000 < cir.toNat ∨ 16000 < pir.toNat ∨ pir.toNat < cir.toNat then none
    else some { p with pend := { p.pend with cir := cir, pir := pir } }
  else if o = 8 then some { p with pend := { p.pend with cbs := v.extractLsb' 0 24 } }
  else if o = 0xC then some { p with pend := { p.pend with pbs := v.extractLsb' 0 24 } }
  else some p

/-- R145, R152: CHn_PAGE_CFG. -/
def Chan.writePage (c : Chan) (v : Word) : Option Chan :=
  let mode := v.extractLsb' 12 2
  let tinit := v.extractLsb' 8 4
  let tmax := v.extractLsb' 4 4
  let tmin := v.extractLsb' 0 4
  if mode = 3 ∨ 9 < tinit.toNat ∨ 9 < tmax.toNat ∨ 9 < tmin.toNat ∨ tinit.toNat < tmin.toNat ∨ tmax.toNat < tinit.toNat then none
  else
    some { c with cfg := { c.cfg with pageMode := mode, tinit := tinit, tmax := tmax, tmin := tmin } }

/-- R145, R153: after a write of CHn_PAGE_CFG every bank starts at the index that it gives. -/
def Chan.pageIndexes (c : Chan) : Chan :=
  let idx := if c.cfg.pageMode = 1 then c.cfg.tmax.toNat else if c.cfg.pageMode = 2 then 0 else c.cfg.tinit.toNat
  c.updSt fun x => { x with banks := x.banks.map fun b => { b with ladder := idx, expired := false } }

/-- R152: CHn_WQ_CFG. -/
def ChanCfg.writeWq (f : ChanCfg) (v : Word) : Option ChanCfg :=
  let dm := v.extractLsb' 16 8
  let lo := v.extractLsb' 8 8
  let hi := v.extractLsb' 0 8
  if dm = 0 ∨ hi = 0 ∨ hi.toNat ≤ lo.toNat then none
  else some { f with wrAge := v.extractLsb' 24 4, drainMax := dm, lo := lo, hi := hi }

/-- R128: CHn_CLASS_RSVc. -/
def ChanCfg.writeRsv (f : ChanCfg) (c : Fin 16) (v : Word) : Option ChanCfg :=
  let mx := v.extractLsb' 9 9
  let mn := v.extractLsb' 0 9
  let mins := upd f.rsvMin c fun _ => mn
  if 256 < mx.toNat ∨ mx.toNat < mn.toNat ∨ 256 < (mins.toList.map BitVec.toNat).sum then none
  else some { f with rsvMin := mins, rsvMax := upd f.rsvMax c fun _ => mx }

/-- R179: what a commit checks. -/
def GateList.valid (l : GateList) : Bool :=
  decide (1 ≤ l.len) && decide (l.len ≤ 16) && decide (1000 ≤ l.cycle) && decide (l.cycle ≤ 1000000) && decide (l.phase < l.cycle)

/-- R172, R174, R179: CHn_GATE_CTRL; a list that is not enabled gives way in the next CC. -/
def Gates.writeCtrl (g : Gates) (now tb : Nat) (v : Word) : Option Gates :=
  let g := g.settle now
  let g := { g with guard := v.extractLsb' 16 10, pend := { g.pend with en := v.getLsbD 8, len := (v.extractLsb' 0 5).toNat } }
  if !v.getLsbD 12 then some g
  else if !g.pend.valid then none
  else some { g with commit := some g.pend, commitAt := (now, tb) }

/-- R186: the pending gate registers. -/
def Gates.writePend (g : Gates) (o : Nat) (v : Word) : Gates :=
  let l := g.pend
  let i : Fin 16 := Fin.ofNat 16 ((o - 0x240) / 8)
  if o = 0x204 then { g with pend := { l with cycle := (v.extractLsb' 0 20).toNat } }
  else if o = 0x208 then { g with pend := { l with phase := (v.extractLsb' 0 20).toNat } }
  else if o % 8 = 0 then { g with pend := { l with dur := upd l.dur i fun _ => v.extractLsb' 0 20 } }
  else { g with pend := { l with mask := upd l.mask i fun _ => v.extractLsb' 0 16 } }

/-- R174: the guard that this CC found, before `g`. -/
def Gates.noteGuard (g old : Gates) (now : Nat) : Gates :=
  { g with guardWas := if old.guardWas.any fun x => x.1 == now then old.guardWas else some (now, old.guard) }

/-- R127, R153: the configuration that this CC found, before `c`. -/
def Chan.noteCfg (c old : Chan) (now : Nat) : Chan :=
  { c with cfgWas := if old.cfgWas.any fun x => x.1 == now then old.cfgWas else some (now, old.cfg) }

/-- R152, R186, R246: fields of a channel engine. -/
def Chan.writeReg (c : Chan) (tb now o : Nat) (v : Word) : Option Chan :=
  let cfg := fun (f : Option ChanCfg) => f.map fun f => ({ c with cfg := f } : Chan)
  if o = 0 then some { c with cfg := { c.cfg with hintEn := v.getLsbD 8, ageCap := v.extractLsb' 0 7 } }
  else if o = 4 then c.writePage v
  else if o = 8 then cfg (c.cfg.writeWq v)
  else if 0x10 ≤ o ∧ o < 0x50 then cfg (c.cfg.writeRsv (Fin.ofNat 16 ((o - 0x10) / 4)) v)
  else if 0x100 ≤ o ∧ o < 0x140 then
    let i : Fin 16 := Fin.ofNat 16 ((o - 0x100) / 4)
    some (if i.val < 3 then c else { c with cfg := { c.cfg with weight := upd c.cfg.weight i fun _ => v.extractLsb' 0 8 } })
  else if o = 0x140 then
    (if (v.extractLsb' 8 4).toNat < 3 then none
     else some { c with cfg := { c.cfg with maintCls := v.extractLsb' 8 4, yellowCost := v.extractLsb' 4 2 } })
  else if o = 0x148 then
    some (c.updSt fun x => { x with hwm := Vector.ofFn fun i => if v.getLsbD i.val then (x.hwm.get i).clear now else x.hwm.get i })
  else if o = 0x200 then (c.gate.writeCtrl now tb v).map fun g => ({ c with gate := g.noteGuard c.gate now } : Chan)
  else if o = 0x204 ∨ o = 0x208 ∨ (0x240 ≤ o ∧ o < 0x2C0) then some { c with gate := c.gate.writePend o v }
  else if o = 0x300 then
    some { c with cfg := { c.cfg with hold := v.getLsbD 24, ceWin := v.extractLsb' 16 4, ceThresh := v.extractLsb' 0 16 } }
  else some c

/-! ## Regions of the control space (R397, R398, R403) -/

/-- The domain that holds the register at an offset, other than AON and MGMT. -/
def regDom (o : Nat) : Option (Fin 39) :=
  if 0x100000 ≤ o ∧ o < 0x180000 then some (modDom (Fin.ofNat 20 ((o - 0x100000) / 0x4000)))
  else if 0x180000 ≤ o ∧ o < 0x200000 then some (modDom (portMod (BitVec.ofNat 9 ((o - 0x180000) / 0x100))))
  else if 0x200000 ≤ o ∧ o < 0x400000 then some (quadDom (o % 0x100000 / 0x4000 / 4))
  else none

/-- R322: the clamps of a domain that is off keep an access to its registers from them (log entry 62, DESIGN CHOICE). An
unusable module shows its state all the same (R98). -/
def State.regOff (s : State) (o : Nat) : Bool :=
  (regDom o).any fun d => !s.domOn d && !(decide (o < 0x180000) && o % 0x4000 == 4 && !s.domUsable d)

/-- R398: the firmware ranges. -/
def isFwRange (o : Nat) : Bool :=
  (decide (0xF000 ≤ o) && decide (o < 0x10000)) || (decide (0x1F000 ≤ o) && decide (o < 0x20000)) ||
  (decide (0x21000 ≤ o) && decide (o < 0x30000)) ||
  (((decide (0x100000 ≤ o) && decide (o < 0x150000)) || (decide (0x200000 ≤ o) && decide (o < 0x400000))) &&
    decide (0x3000 ≤ o % 0x4000))

/-- R458: the index words of the debug windows, and their data words. -/
def isDbgIdx (o : Nat) : Bool :=
  decide (0x200000 ≤ o) && decide (o < 0x300000) && (o % 0x4000 == 0x3F00 || o % 0x4000 == 0x3F20)
def isDbgData (o : Nat) : Bool :=
  decide (0x200000 ≤ o) && decide (o < 0x300000) && [0x3F04, 0x3F08, 0x3F0C, 0x3F10, 0x3F24, 0x3F28].contains (o % 0x4000)

/-- The mailbox of an offset and the register in it. -/
def mbOf (o : Nat) : Option (Mb × Nat) :=
  if 0x800 ≤ o ∧ o < 0x980 then some (Fin.ofNat 24 ((o - 0x800) / 16), o % 16) else none
def semOf (o : Nat) : Option SemIx := if 0xC00 ≤ o ∧ o < 0xC80 then some (Fin.ofNat 32 ((o - 0xC00) / 4)) else none

/-- R342. -/
def Mailbox.allows (b : Mailbox) (who : Ident) : Bool := who == fwIdent || b.owner == some who

/-! ## Semaphores (R356) -/

def State.setSem (s : State) (i : SemIx) (o : Option Ident) : State :=
  s.updMgmt fun g => { g with sem := upd g.sem i fun _ => o }

/-- R356: a read acquires a free semaphore. -/
def State.readSem (s : State) (who : Ident) (i : SemIx) : AccRes × State :=
  match s.mgmt.sem.get i with
  | none => (.ok 0, s.setSem i (some who))
  | some w => (.ok (semWord (some w)), s)

/-- R356: the owner or firmware releases with the held value. -/
def State.writeSem (s : State) (who : Ident) (i : SemIx) (v : Word) : AccRes × State :=
  match s.mgmt.sem.get i with
  | none => (.err errDENIED, s)
  | some w => if (who = w ∨ who = fwIdent) ∧ v = semWord (some w) then (.ok 0, s.setSem i none) else (.err errDENIED, s)

/-! ## Reads and writes -/

/-- R426: the next word of the draining bank, or a wait. -/
def State.popLog (s : State) (a : Access) : AccRes × State :=
  match s.mgmt.log.drain with
  | w :: r => (.ok w, s.updLog fun l => { l with drain := r })
  | [] => (.wait, s.updLog fun l => { l with pops := l.pops ++ [a] })

/-- A read of an assigned offset whose word is `w`. -/
def State.readReg (s : State) (a : Access) (w : Word) : AccRes × State :=
  match mbOf a.off.toNat with
  | some (k, _) => if (s.mb k).allows a.who then (.ok w, s) else (.err errDENIED, s)
  | none =>
    match semOf a.off.toNat with
    | some i => s.readSem a.who i
    | none =>
      if s.regOff a.off.toNat then
        let (v, s) := s.drawBits 32
        (.ok v, s)
      else (.ok w, s)

/-- R342, R348: a write of a mailbox register; firmware has registers of its own (R403). -/
def State.writeMb (s : State) (who : Ident) (k : Mb) (o : Nat) (v : Word) : AccRes × State :=
  if !(s.mb k).allows who then (.err errDENIED, s)
  else if o = 0 then (if (s.mb k).owner = some who then (.ok 0, s.inboundWrite who k v) else (.err errDENIED, s))
  else if o = 8 then
    (if (s.mb k).owner = some who then (.ok 0, if v.getLsbD 0 then s.takeOut k else s) else (.err errDENIED, s))
  else (.ok 0, s)

/-- R405: acknowledge up to the occurrences counted. -/
def EvSrc.writeAck (e : EvSrc) (v : BitVec 16) : Option EvSrc :=
  if (v - e.ack).toNat ≤ (e.occ - e.ack).toNat then some { e with ack := v } else none

/-- R416. -/
def EvSrc.writeRoute (e : EvSrc) (v : Word) : Option EvSrc :=
  if 20 ≤ (v.extractLsb' 8 5).toNat then none
  else some { e with msgEn := v.getLsbD 31, ibiEn := v.getLsbD 30, holdoff := v.extractLsb' 27 3,
                     ibiTgt := Fin.ofNat 4 (v.extractLsb' 20 2).toNat, module := Fin.ofNat 20 (v.extractLsb' 8 5).toNat,
                     port := v.extractLsb' 0 4 }

/-- R107: GLB_MAP_CFG. Commands are serialised as the queue holds them: a request that passes check 8 in the CC of the write
stands before the write, freezes the register and has the write refused (log entry 1, DESIGN CHOICE). -/
def State.writeMapCfg (s : State) (v : Word) : AccRes × State :=
  if s.map.frozen then (.err errDENIED, s)
  else if v.extractLsb' 0 2 = 3 then (.err errBADFLD, s)
  else (.ok 0, s.updMap fun m => { m with gran := v.extractLsb' 0 2, xorCh := v.getLsbD 3, xorBank := v.getLsbD 4 })

/-- The outcome of a write that a field map may refuse. -/
def wrote {α : Type} (s : State) (r : Option α) (f : α → State) : AccRes × State :=
  match r with
  | none => (.err errBADFLD, s)
  | some x => (.ok 0, f x)

/-- The global region. -/
def State.writeGlobal (s : State) (who : Ident) (o : Nat) (v : Word) : AccRes × State :=
  match mbOf o, semOf o with
  | some (k, r), _ => s.writeMb who k r v
  | none, some i => s.writeSem who i v
  | none, none =>
    if o = 0x200 then s.writeMapCfg v
    else if o = 0x220 then (.ok 0, s.updMap fun m => { m with probe := m.probe.extractLsb' 32 8 ++ v })
    else if o = 0x224 then (.ok 0, s.updMap fun m => { m with probe := v.extractLsb' 0 8 ++ m.probe.extractLsb' 0 32 })
    else if 0x1000 ≤ o ∧ o < 0x15A0 then
      let e : Ev := Fin.ofNat 360 ((o - 0x1000) / 4)
      wrote s ((s.mgmt.ev.get e).writeAck (v.extractLsb' 0 16)) fun x => s.updEv e fun _ => x
    else if 0x1600 ≤ o ∧ o < 0x1BA0 then
      let e : Ev := Fin.ofNat 360 ((o - 0x1600) / 4)
      wrote s ((s.mgmt.ev.get e).writeRoute v) fun x => s.updEv e fun _ => x
    else if o = 0x200C then
      let s := s.updLog fun l => { l with levelThresh := v.extractLsb' 0 12 }
      (.ok 0, if v.getLsbD 16 then s.logFlush else s)
    else (.ok 0, s)

/-- R20, R408: a write that passed the checks is posted, or discarded and counted. -/
def Posted.post (p : Posted) (off : BitVec 24) (v : Word) (now : Nat) : Posted :=
  if p.pend.isSome then { p with disc := satInc p.disc } else { p with pend := some (off, v), at_ := now }

/-- R305: the index that TSVn_LANE_IDX accepts. -/
def laneIdxOk (v : Word) : Bool :=
  let g := v.extractLsb' 6 2
  let l := (v.extractLsb' 0 6).toNat
  g != 3 && decide (l < if g = 2 then 20 else 38)

/-- The always-on region and the TSV PHYs (R338, R305, R408). -/
def State.writePosted (s : State) (off : BitVec 24) (v : Word) : AccRes × State :=
  let o := off.toNat
  let now := s.now
  if o = 0x10008 then (.ok 0, s.updMgmt fun g => { g with postAon := g.postAon.post off v now })
  else if 0x300000 ≤ o ∧ o % 0x4000 = 8 then
    let n : Ch := Fin.ofNat 64 ((o - 0x300000) / 0x4000)
    if laneIdxOk v then (.ok 0, s.updMgmt fun g => { g with postTsv := upd g.postTsv n fun p => p.post off v now })
    else (.err errBADFLD, s)
  else (.ok 0, s)

/-- R98: a retrain: in-band it waits for the WACK of its write. -/
def State.writeRetrain (s : State) (org : Origin) (m : Mod) : State :=
  match org with
  | .inband w seq =>
    (match (s.hlm.get w).cfgq.find? fun c => c.seq == seq && c.started with
     | none => s.linkReset m
     | some c => s.updHlm w fun h => { h with retrains := h.retrains ++ [(c.port, c.tag, m)] })
  | .sideband _ | .debug _ | .direct => s.linkReset m

/-- R458: a snapshot of a table entry or of a tracker entry. -/
def State.snapshot (s : State) (n : Ch) (trk : Bool) (v : Word) : State :=
  let idle := s.map.isFollower n
  s.updChan n fun c =>
    if trk then
      let t := c.trk (Fin.ofNat 128 (v.extractLsb' 7 7).toNat)
      { c with dbg := { c.dbg with trkIdx := v.extractLsb' 0 14, trkValid := true,
                                   trkEnt := if idle then 0 else t.view (v.extractLsb' 0 7).toNat, trkS := if idle then 0 else t.s } }
    else
      { c with dbg := { c.dbg with ttIdx := v.extractLsb' 0 8, ttValid := true,
                                   tt := if idle then 0 else c.entryView (Fin.ofNat 256 (v.extractLsb' 0 8).toNat) } }

/-- R398, R403, R458: writes to a firmware range; the data words of the debug windows are RO. -/
def State.writeFwRange (s : State) (a : Access) (v : Word) : AccRes × State :=
  let o := a.off.toNat
  if isDbgIdx o ∧ (a.who = fwIdent ∨ identClass a.who = 2) then
    (.ok 0, if s.regOff o then s else s.snapshot (Fin.ofNat 64 ((o - 0x200000) / 0x4000)) (o % 0x4000 == 0x3F20) v)
  else if a.who = fwIdent ∨ isDbgData o then (.ok 0, s)
  else (.err errDENIED, s)

/-- R127, R148, R153: a channel whose register at `o` has been written: a follower's page policy is stored and not applied;
the end of a hold counts as the end of work (R310). -/
def State.setChan (s : State) (n : Ch) (o : Nat) (c : Chan) : State :=
  let now := s.now
  let old := s.chan.get n
  let s := s.updChan n fun _ => c.noteCfg old now
  let s := if o = 4 ∧ s.map.isFollower n = false then s.updBanks n Chan.pageIndexes else s
  if old.cfg.hold && !c.cfg.hold then s.stir else s

/-- A write of an assigned offset; one to an RO register is ignored (R403). -/
def State.writeReg (s : State) (a : Access) (v : Word) : AccRes × State :=
  let o := a.off.toNat
  let tb := s.tb
  if isFwRange o then s.writeFwRange a v
  else if o < 0x10000 then s.writeGlobal a.who o v
  else if o < 0x20000 ∨ 0x300000 ≤ o then s.writePosted a.off v
  else if o < 0x100000 then (.ok 0, s)
  else if o < 0x180000 then
    let m : Mod := Fin.ofNat 20 ((o - 0x100000) / 0x4000)
    wrote s ((s.hlm.get m).writeReg (o % 0x4000) v) fun h =>
      if s.regOff o then s
      else
        let s := s.updHlm m fun _ => h
        if o % 0x4000 = 0 ∧ v.getLsbD 8 = true then s.writeRetrain a.org m else s
  else if o < 0x200000 then
    let k : PortK := Fin.ofNat 320 ((o - 0x180000) / 0x100)
    let seq := (s.hlm.get (portMod (BitVec.ofNat 9 k.val))).seq
    wrote s ((s.port.get k).writeReg s.now seq (o % 0x100) v) fun p => if s.regOff o then s else s.updPort k fun _ => p
  else
    let n : Ch := Fin.ofNat 64 ((o - 0x200000) / 0x4000)
    wrote s ((s.chan.get n).writeReg tb s.now (o % 0x4000) v) fun c => if s.regOff o then s else s.setChan n (o % 0x4000) c

/-! ## Mailbox and staging windows (R354, R436, R439) -/

/-- R436: the windows of MB0 to MB15 are the staging window. -/
def State.staging (s : State) (k : Mb) : Bool := decide (k.val < 16) && (s.fw.st == .rom || s.fw.st == .loader)

/-- R436, R439, R440: an access at offset `p` of the staging window. -/
def State.stagingAccess (s : State) (a : Access) (k : Mb) (b : Nat) : AccRes × State :=
  let p := 0x1000 * k.val + b
  let fixed := p == 0xC || (decide (0x10 ≤ p) && decide (p < 0x40))
  match a.wr with
  | none => (.ok (if p = 0x10 then s.boot.done else if p = 0x14 then w32 s.boot.stream.length else if fixed then 0
      else memReadW (s.mb k).win b), s)
  | some v =>
    if s.fw.started || s.boot.deliverer.any (fun d => d != a.who) then (.err errDENIED, s)
    else if fixed then (.ok 0, s)
    else
      let s := s.updMb k fun m => { m with win := memWriteW m.win b (if p = 0 then v &&& 0x1FFFF else v) }
      (.ok 0, if p = 0 then s.stagingGo a.who v else s)

/-- R342, R354, R436: an access to a window. -/
def State.windowReg (s : State) (a : Access) (k : Mb) (b : Nat) : AccRes × State :=
  if s.staging k then s.stagingAccess a k b
  else if !(s.mb k).allows a.who then (.err errDENIED, s)
  else if (s.mb k).winFw && a.who != fwIdent then (.wait, s.updMb k fun m => { m with waiting := m.waiting ++ [a] })
  else s.windowAccess k b a.wr

/-! ## Bit aliases (R406, R407) -/

/-- R406: the global offset and the bit of an alias. -/
def aliasOf (o : Nat) : Nat × Nat := ((o - 0x800000) / 128 * 4, (o - 0x800000) % 128 / 4)

/-- The word with one bit changed. -/
def putBit (w : Word) (b : Nat) (v : Bool) : Word := if v then w ||| BitVec.twoPow 32 b else w &&& ~~~(BitVec.twoPow 32 b)

def State.aliasReg (s : State) (a : Access) : AccRes × State :=
  let (o, b) := aliasOf a.off.toNat
  if o = 0x2000 then (.err errDENIED, s)
  else
    match s.peek o with
    | none => (.err errADDR, s)
    | some w =>
      match a.wr with
      | none =>
        let bit : Word := if w.getLsbD b then 1 else 0
        (match mbOf o with
         | some (k, _) => if (s.mb k).allows a.who then (.ok bit, s) else (.err errDENIED, s)
         | none =>
           if s.regOff o then
             let (v, s) := s.drawBits 32
             (.ok (v &&& 1), s)
           else (.ok bit, s))
      | some v =>
        if (mbOf o).isSome || (semOf o).isSome then (.err errDENIED, s)
        else s.writeReg { a with off := BitVec.ofNat 24 o } (putBit w b (v.getLsbD 0))

/-! ## One access (R395) -/

def State.perform (s : State) (a : Access) : AccRes × State :=
  let o := a.off.toNat
  if o % 4 ≠ 0 then (.err errMISALIGN, s)
  else if 0xF00000 ≤ o then (if a.who = fwIdent then (.ok (Config.fwRangeValue o []), s) else (.err errDENIED, s))
  else if 0x800000 ≤ o ∧ o < 0xA00000 then s.aliasReg a
  else
    match windowOf o with
    | some (k, b) => s.windowReg a k b
    | none =>
      if o = 0x2000 then (if a.wr.isSome then (.ok 0, s) else s.popLog a)
      else
        match s.peek o with
        | none => (.err errADDR, s)
        | some w =>
          match a.wr with
          | none => s.readReg a w
          | some v => s.writeReg a v

/-- R400: the place of a writer among those of one MC cycle: in-band in descending port number, debug from the highest path,
sideband from the highest target, firmware last. -/
def writeRank (who : Ident) : Nat :=
  let i := (who.extractLsb' 0 9).toNat
  512 * (match identClass who with
    | 0 => 0
    | 2 => 1
    | 1 => 2
    | _ => 3) + (511 - i)

/-- R400: a register that only its value distinguishes: one write after another leaves the later value. -/
def plainReg (o : Nat) : Bool :=
  !isFwRange o && (mbOf o).isNone && (semOf o).isNone && o != 0x2000 && (decide (o < 0x10000) || (decide (0x100000 ≤ o) && decide (o < 0x300000)))

/-- R406, R407: the register that an access concerns, and the bits of it that a write gives a value. -/
def regBits (o : Nat) : Nat × Word :=
  if 0x800000 ≤ o ∧ o < 0xA00000 then ((aliasOf o).1, BitVec.twoPow 32 (aliasOf o).2) else (o, BitVec.allOnes 32)

/-- R400: the number of the MC cycle, of 2 ns, whose accesses are resolved at or next after now. -/
def State.mcCycle (s : State) : Nat := (s.now + 1) / 2

/-- R400, R407: the writes to a register in one MC cycle are performed in the order of their writers: what one of a later place has
written already stays. -/
def State.performOrdered (s : State) (a : Access) : AccRes × State :=
  match a.wr with
  | none => s.perform a
  | some _ =>
    let mc := s.mcCycle
    let (o, m) := regBits a.off.toNat
    let later := (s.mgmt.cycleWr.filter fun x => x.1 == mc && x.2.1 == o && decide (writeRank a.who < x.2.2.1)).foldl
      (fun v x => v ||| x.2.2.2) 0
    let was := s.peek o
    match s.perform a with
    | (.ok v, s) =>
      let s := s.updMgmt fun g => { g with cycleWr := (mc, o, writeRank a.who, m) :: g.cycleWr.filter (·.1 == mc) }
      (match was, s.peek o with
       | some w, some x =>
         if plainReg o && later &&& m != 0 then (.ok v, (s.writeReg { a with off := BitVec.ofNat 24 o } ((x &&& ~~~later) ||| (w &&& later))).2)
         else (.ok v, s)
       | _, _ => (.ok v, s))
    | (r, s) => (r, s)

/-- An access is performed and answered on its path. One that a command names directly has an MC cycle of its own (log entry 1). -/
def State.access (s : State) (a : Access) : State :=
  let (r, s) := if a.org = .direct then s.perform a else s.performOrdered a
  s.accAnswer a r

/-- An access whose outcome only `mgmt.lastAcc` keeps, while the fabric has power. -/
def State.direct (s : State) (who : Ident) (off : Nat) (wr : Option Word) : State :=
  if s.mgmtOn then s.access { who := who, org := .direct, off := BitVec.ofNat 24 off, wr := wr } else s

/-- R357, R400, R428: the place of an access among those of one MC cycle: a LOG_POP, then the writes in the order of their writers,
then the reads, firmware's first. -/
def tiedPlace (a : TiedAcc) : Nat :=
  if a.off = 0x2000 then 0 else if a.wr.isSome then 1 + writeRank a.who else 4096 - writeRank a.who

def insertTied (a : TiedAcc) : List TiedAcc → List TiedAcc
  | [] => [a]
  | b :: l => if tiedPlace a ≤ tiedPlace b then a :: b :: l else b :: insertTied a l

/-- R357, R400: accesses that reach the fabric in one MC cycle are performed one after another, in the order of their places. -/
def State.performTied (s : State) (l : List TiedAcc) : State :=
  (l.foldr insertTied []).foldl (fun s a =>
    let s := s.direct a.who a.off.toNat a.wr
    s.updMgmt fun g => { g with tied := g.tied ++ [(a, g.lastAcc)] }) (s.updMgmt fun g => { g with tied := [] })

/-! ## Firmware's own registers (R154, R247, R271, R307, R339, R411) -/

def Chan.updCfg (c : Chan) (f : ChanCfg → ChanCfg) : Chan := { c with cfg := f c.cfg }

/-- The largest multiplier of a channel's SIDs. -/
def State.chanMult (s : State) (n : Ch) : Nat :=
  ((List.finRange 4).map fun i => if i.val < s.map.nsid then s.mult n i else 1).foldl max 1

/-- R218, R303: a lane is marked within the limit, or its requalification without a spare starts. -/
def State.eraseSet (s : State) (n : Ch) (p : Pc) (lane : Fin 36) (on : Bool) : State :=
  let g := (s.chan.get n).pc.get p
  if on then
    (if g.marks.getLsbD lane.val then s
     else if s.markRoom n p then
       (s.updChan n fun c => c.updPc p fun g => { g with marks := g.marks ||| BitVec.twoPow 36 lane.val }).noSpare n p
     else s.refuseMark n p lane.val)
  else if g.marks.getLsbD lane.val && g.requal.isNone && decide (4 ≤ (g.lanes.get (Fin.ofNat 38 lane.val)).goodPauses)
      && !(g.spares.toList.any fun x => x.en && x.lane.toNat == lane.val) then
    s.updChan n fun c => c.updPc p fun g => { g with requal := some lane, requalNext := 0, requalWait := [] }
  else s

/-- R154: self-refresh and power-down entered or left outside the scheduler; not while a repair holds a die of the channel in
its mode (R237, R283). -/
def State.zciSr (s : State) (n : Ch) (on : Bool) : State :=
  if (s.chan.get (s.map.server n)).repairHolds then s
  else if on then s.enterSr n (some (s.chanMult n))
  else s.exitSr n
def State.zciPd (s : State) (n : Ch) (on : Bool) : State :=
  if (s.chan.get (s.map.server n)).repairHolds then s
  else if on then (s.preabAll (s.map.server n)).enterPd n
  else if (s.chan.get (s.map.server n)).st.pwr == .powerDown then s.exitPd n
  else s

/-- R154, R283: a PREab or REFab of firmware is not sent to a die in a repair, nor to dies that are not active. -/
def State.zciReady (s : State) (n : Ch) (sid : SidIx) : Bool :=
  (s.chan.get n).st.pwr == .active && !(s.chan.get n).mrwBarred sid

/-- The first bank of a pseudo-channel and SID. -/
def firstBank (p : Pc) (sid : SidIx) : BankIx := Fin.ofNat 128 (64 * p.val + 16 * sid.val)

/-- R154: PREab outside the scheduler. -/
def State.zciPreab (s : State) (e : Ch) (b : BankIx) : State :=
  if !s.zciReady e (bankSid b) then s
  else
    let now := s.now
    (s.issueSoon e .preab (bankLoc b 0 0) 0 0).updBanks e fun c =>
      (sidBanks b).foldl (fun c k => c.closeRow (s.tim e).tRP now k .other) c

/-- R154, R253: REFab outside the scheduler: one refresh of every unit. The spec does not say what becomes of an open bank: the
PREab that goes before every REFab (R119, R252) closes it (log entry 64, DESIGN CHOICE). A unit at -8 goes below it (log entry 84,
DESIGN CHOICE). -/
def State.zciRefab (s : State) (e : Ch) (b : BankIx) : State :=
  if !s.zciReady e (bankSid b) then s
  else
    ((s.zciPreab e b).issueSoon e .refab (bankLoc b 0 0) 0 0).updChan e fun c =>
      (c.updRf fun r => (if c.cfg.refAllBank then [b] else sidBanks b).foldl (fun r u => r.pay u) r).updCnt fun k =>
        { k with ref := k.ref + 1 }

/-- R268: pacing intervals that CHn_DIST_CTRL accepts. -/
def State.paceOk (s : State) (n : Ch) (v : Nat) : Bool :=
  v == 0 || (decide ((s.tim (s.map.server n)).tRCck ≤ 2 * v) && decide (v ≤ 255))

/-- R286, R307: a spare is selected for a lane, unless it is in service or has failed. -/
def State.selSpare (s : State) (n : Ch) (p : Pc) (i : Fin 2) (lane : Nat) : State :=
  let x := ((s.chan.get n).pc.get p).spares.get i
  if 36 ≤ lane ∨ x.en = true ∨ x.failed = true then s
  else s.updChan n fun c => c.updPc p fun g => { g with sel := some (i, Fin.ofNat 36 lane) }
def State.selCsp (s : State) (n : Ch) (i : Fin 2) (lane : Nat) : State :=
  let x := (s.chan.get n).csp.get i
  if 18 ≤ lane ∨ x.en = true ∨ x.failed = true then s
  else s.updChan n fun c => { c with selCmd := some (i, Fin.ofNat 18 lane) }

/-- R310, R315: AON_PWR_MODE. -/
def State.writePwrMode (s : State) (v : BitVec 2) : State :=
  if v = 3 then s
  else
    let s := s.updPwr fun p => { p with target := v }
    if v = 0 ∧ s.pwr.state = .chrysMgmt then (s.abandonVisit).startWake 6 0x1F else s

/-- A write within the range that the spec gives a field; outside it the field keeps its value. -/
def State.within (s : State) (lo hi v : Nat) (t : State) : State := if lo ≤ v ∧ v ≤ hi then t else s

def State.updLane (s : State) (n : Ch) (p : Pc) (i : Fin 38) (f : Lane → Lane) : State :=
  s.updChan n fun c => c.updPc p fun g => { g with lanes := upd g.lanes i f }

/-- R232, R247: firmware installs a remap entry for the line of a location word, under the conditions of R379. -/
def State.fwInstall (s : State) (n : Ch) (l : Loc) : State :=
  let e := s.map.server n
  let c := s.chan.get e
  match (List.finRange 16).find? fun i => (c.remap.get i).st == .free with
  | none => s
  | some i =>
    if s.seqHeld e || c.inReset || s.notServing n || (c.remapOf l).isSome || s.unmapped n || decide (s.map.nrow ≤ l.row.toNat)
      || decide (s.map.nsid ≤ l.sid.toNat) then s else s.remapStart e i l false none

/-- R233, R247: firmware releases a remap entry, under the conditions of R380. -/
def State.fwRelease (s : State) (n : Ch) (i : Fin 16) : State :=
  let st := ((s.chan.get n).remap.get i).st
  if s.seqHeld n || st == .free || st == .filling || s.map.isFollower n || s.isGone n then s else s.remapStart n i ((s.chan.get n).remap.get i).loc true none

/-- R235, R237, R247: firmware starts the repair sequencer on the row of a location word, under the conditions of R381. -/
def State.fwRepair (s : State) (n : Ch) (hard : Bool) (l : Loc) : State :=
  if s.unmapped n || decide (s.map.nrow ≤ l.row.toNat) || decide (s.map.nsid ≤ l.sid.toNat) || s.seqHeld n || s.notServing n
    || !s.resLeft n l hard || (hard && !(s.chan.get (s.map.server n)).holdIdle) then s
  else s.repairStart n l hard none

/-- R228, R247, R378: a channel's share of a pass of firmware: the first share starts the pass, and one of the same range joins it. -/
def State.fwShare (s : State) (n : Ch) (a : ScrubArgs) : State :=
  let b := s.mgmt.scrub
  let p : PassArgs := { start := a.start.toNat, len := a.len.toNat, mode := a.mode.toNat, pace := a.pace.toNat, pattern := a.pattern.toNat }
  if s.passBad p.start p.len p.mode p.pace || (b.held && !b.running) then s
  else if b.running then
    (if b.ident == fwIdent && b.mode == a.mode && b.pattern == a.pattern && b.pace == p.pace && b.start ≤ p.start
        && p.start + p.len ≤ b.start + b.len && s.takesShare n then s.updChan n fun c => { c with share := true } else s)
  else s.startPass p none fwIdent 0 (· == n)

/-- R320, R321, R339: firmware closes or opens the switch of a domain, other than AON and its own, MGMT (log entry 71, DESIGN
CHOICE). -/
def State.seqSwitch (s : State) (d : Fin 39) (on : Bool) : State :=
  let now := s.now
  if d.val < 2 then s
  else if on then
    if s.pwr.dom.get d = 0 then s.updPwr fun p => { p with seqOn := p.seqOn ||| BitVec.twoPow 39 d.val, upAt := now } else s
  else (s.updPwr fun p => { p with seqOn := p.seqOn &&& ~~~(BitVec.twoPow 39 d.val) }).offDom d

/-- R334, R339: a state variable of the model, in 1/1000 of a degree (log entry 71, DESIGN CHOICE). -/
def Thermal.setState (t : Thermal) (i : Fin 3) (x : Rat) : Thermal :=
  if i = 0 then { t with td := x } else if i = 1 then { t with ts := x } else { t with tamb := x }

/-- R411: half of a provisional identification. -/
def I3cTgt.setProv (x : I3cTgt) (high : Bool) (v : Word) : I3cTgt :=
  { x with provId := if high then v.extractLsb' 0 16 ++ x.provId.extractLsb' 0 32 else x.provId.extractLsb' 32 16 ++ v }

/-- R386, R411, R446: a shadow override is set or taken away. -/
def Fuses.setShadow (f : Fuses) (r : Fin 8) (off : Nat) (on : Bool) (v : Word) : Fuses :=
  let rest := f.shadows.filter fun x => !(x.1 == r.val && x.2.1 == off)
  if on && decide (32 ≤ rest.length) then f
  else
    let f := { f with shadows := if on then rest ++ [(r.val, off, v)] else rest }
    f.takeTrims fun i => r.val == 0 && i == off && decide (i < 8)

/-- A firmware write of a firmware-owned field. A change of the refresh mode leaves the debts as they are (log entry 85, DESIGN
CHOICE). -/
def State.writeFw (s : State) (r : FwReg) (v : Word) : State :=
  let k := v.toNat
  let on := v.getLsbD 0
  match r with
  | .tim n i => s.writeTim n i k
  | .zciSelfRefresh n => s.zciSr n on
  | .zciPowerDown n => s.zciPd n on
  | .zciPreab n p sid => s.zciPreab (s.map.server n) (firstBank p sid)
  | .zciRefab n p sid => s.zciRefab (s.map.server n) (firstBank p sid)
  | .mrw n sid a => s.askMr (s.map.server n) { sid := sid, addr := a, act := .inl (v.extractLsb' 0 8) }
  | .mrr n sid p a => s.askMr (s.map.server n) { sid := sid, addr := a, act := .inr p }
  | .eraseSet n p l => s.eraseSet n p l on
  | .refMode n => s.updChan n fun c => c.updCfg fun f => { f with refAllBank := on }
  | .rateMin n => s.within 0 2 k (s.updChan n fun c => c.updCfg fun f => { f with rateMin := v.extractLsb' 0 2 })
  | .distThresh n => s.within 256 2048 k (s.updChan n fun c => c.updCfg fun f => { f with thresh := v.extractLsb' 0 12 })
  | .distPace n => if s.paceOk n k then s.updChan n fun c => c.updCfg fun f => { f with pace := v.extractLsb' 0 8 } else s
  | .rxTap n p i => s.updLane n p i fun l => { l with selRx := some (v.extractLsb' 0 6) }
  | .rxSampler n p i => s.updLane n p i fun l => { l with selSampler := some on }
  | .txTap n p i => s.updLane n p i fun l => { l with selTx := some (v.extractLsb' 0 6) }
  | .cmdTap n i =>
    s.updChan n fun c => { c with cmdLane := upd c.cmdLane i fun l => { l with selTx := some (v.extractLsb' 0 6) } }
  | .spareSel n p => s.selSpare n p (Fin.ofNat 2 (k / 64)) (k % 64)
  | .spareCmd n => s.selCsp n (Fin.ofNat 2 (k / 32)) (k % 32)
  | .recalEn n => s.updChan n fun c => c.updCfg fun f => { f with recalEn := on }
  | .urgentPause n =>
    if k % 4 = 3 then s.askUrgent n none else if k % 4 = 1 then s.askUrgent n (some 0)
    else if k % 4 = 2 then s.askUrgent n (some 1) else s
  | .marginBoot n => s.updChan n fun c => c.updCfg fun f => { f with bootMin := k }
  | .marginWarn n => s.updChan n fun c => c.updCfg fun f => { f with warn := k }
  | .marginFail n => s.updChan n fun c => c.updCfg fun f => { f with fail := k }
  | .monThresh n => s.updChan n fun c => c.updCfg fun f => { f with monThresh := k }
  | .pwrMode => s.writePwrMode (v.extractLsb' 0 2)
  | .pwrQuiet => s.within 1000 1000000 k (s.updPwr fun p => { p with quiet := k })
  | .pwrDeferMax => s.within 1000000 1000000000 k (s.updPwr fun p => { p with deferMax := k })
  | .eyePeriod => s.within 1 64 k (s.updPwr fun p => { p with eye := { p.eye with period := k } })
  | .eyeWakeHi => s.updPwr fun p => { p with eye := { p.eye with wakeHi := v.extractLsb' 0 8 } }
  | .thermCap => s.within 0 64 k (s.broadcast k)
  | .thermWarn =>
    s.within 60 90 k (if k + 5 ≤ s.mgmt.therm.throttle.toNat then s.updTherm fun t => { t with warn := v.extractLsb' 0 8 } else s)
  | .thermThrottle =>
    s.within 65 95 k (if s.mgmt.therm.warn.toNat + 5 ≤ k then s.updTherm fun t => { t with throttle := v.extractLsb' 0 8 } else s)
  | .critCap => s.within 0 32 k (s.updTherm fun t => { t with critCap := v.extractLsb' 0 6 })
  | .logMask e =>
    s.updLog fun l => { l with mask := if on then l.mask ||| BitVec.twoPow 360 e.val else l.mask &&& ~~~(BitVec.twoPow 360 e.val) }
  | .i3cIbiEnable t => if on then s.i3cIbiEnabled t else s.updI3c t fun x => { x with ibiOn := false, ibiq := [], ibi := none }
  | .remapInstall n col => s.fwInstall n { recLoc v 0 with col := col }
  | .remapRelease n i => s.fwRelease n i
  | .pprStart n hard => s.fwRepair n hard (recLoc v 0)
  | .scrubShare n a => s.fwShare n a
  | .trainCtrl n => if on && s.boot.ph == .cold 11 then s.t1 n else s
  | .beatAlign n p =>
    -- R285: set at boot training and never changed afterwards
    if s.boot.ph == .cold 11 then s.updChan n fun c => c.updPc p fun g => { g with align := v.extractLsb' 0 6 } else s
  | .seqSwitch d => s.seqSwitch d on
  | .thermFloor => s.within 0 64 k (s.updTherm fun t => { t with floor := v.extractLsb' 0 7 })
  | .thermBmax => s.within 0 65535 k (s.setTherm fun t => { t with bMax := v.extractLsb' 0 16, budget := min t.budget k })
  | .thermParam i => if i.val < 2 ∧ k = 0 then s else s.updTherm fun t => { t with model := upd t.model i fun _ => some k }
  | .thermState i => s.updTherm fun t => t.setState i ((v.toInt : Rat) / 1000)
  | .hlmTrim m i =>
    if 8 ≤ i.val ∧ Config.trimUnit i.val = m.val then s.updFuse fun f => { f with trims := upd f.trims i fun _ => some v } else s
  | .linkFw m => s.updHlm m fun h => { h with linkFw := v }
  | .wdtPeriod =>
    let now := s.now
    s.updFw fun f => { f with wdtPeriod := k, wdtServed := now }
  | .wdtService =>
    let now := s.now
    s.updFw fun f => { f with wdtServed := now }
  | .i3cStatic => s.updMgmt fun g => { g with i3cStatic := v.extractLsb' 0 7 }
  | .i3cProvId t high => s.updI3c t fun x => x.setProv high v
  | .fuseShadow r i on => s.updFuse fun f => f.setShadow r i.val on v

/-- The channel whose engine or PHY holds a field. -/
def fwRegCh : FwReg → Option Ch
  | .tim n _ | .zciSelfRefresh n | .zciPowerDown n | .zciPreab n _ _ | .zciRefab n _ _ | .mrw n _ _ | .mrr n _ _ _
  | .eraseSet n _ _ | .refMode n | .rateMin n | .distThresh n | .distPace n | .rxTap n _ _ | .rxSampler n _ _ | .txTap n _ _
  | .cmdTap n _ | .spareSel n _ | .spareCmd n | .recalEn n | .urgentPause n | .marginBoot n | .marginWarn n | .marginFail n
  | .monThresh n | .remapInstall n _ | .remapRelease n _ | .pprStart n _ | .scrubShare n _ | .trainCtrl n | .beatAlign n _ => some n
  | .pwrMode | .pwrQuiet | .pwrDeferMax | .eyePeriod | .eyeWakeHi | .thermCap | .thermWarn | .thermThrottle | .critCap
  | .logMask _ | .i3cIbiEnable _ | .seqSwitch _ | .thermFloor | .thermBmax | .thermParam _ | .thermState _ | .hlmTrim _ _ | .linkFw _
  | .wdtPeriod | .wdtService | .i3cStatic | .i3cProvId _ _ | .fuseShadow _ _ _ => none

/-- R21, R55, R322, R403; a restarting Priri writes nothing. -/
def State.fwRegWrite (s : State) (who : Ident) (r : FwReg) (v : Word) : State :=
  if !s.mgmtOn || (who == fwIdent && s.fw.st == .restarting) then s
  else if who = fwIdent then
    (if (fwRegCh r).all s.quadOn then s.writeFw r v else s).updMgmt fun g => { g with lastAcc := .ok 0 }
  else s.updMgmt fun g => { g with lastAcc := .err errDENIED }

/-! ## Offsets of the registers that have a command of their own -/

def offHlm (m : Mod) (o : Nat) : Nat := 0x100000 + 0x4000 * m.val + o
def offPort (k : PortK) (o : Nat) : Nat := 0x180000 + 0x100 * k.val + o
def offChan (n : Ch) (o : Nat) : Nat := 0x200000 + 0x4000 * n.val + o

def execRegisterWrite (who : Ident) (t : RegTarget) (v : Word) (s : State) : Host.Outcome State Fault Refusal :=
  match t with
  | .off a => .next (s.direct who a.toNat (some v))
  | .tied a l => .next (s.performTied ({ who := who, off := a, wr := some v } :: l))
  | .fw r => .next (s.fwRegWrite who r v)

def execRetrain (who : Ident) (m : Mod) (v : Word) (s : State) : Host.Outcome State Fault Refusal :=
  .next (s.direct who (offHlm m 0) (some v))

def execGateCommit (who : Ident) (n : Ch) (v : Word) (s : State) : Host.Outcome State Fault Refusal :=
  .next (s.direct who (offChan n 0x200) (some v))

def execApplyRates (who : Ident) (k : PortK) (v : Word) (s : State) : Host.Outcome State Fault Refusal :=
  .next (s.direct who (offPort k 0) (some v))

def execPortClassChange (who : Ident) (k : PortK) (v : Word) (s : State) : Host.Outcome State Fault Refusal :=
  .next (s.direct who (offPort k 0) (some v))

def execHwmClr (who : Ident) (k : PortK) (v : Word) (s : State) : Host.Outcome State Fault Refusal :=
  .next (s.direct who (offPort k 0) (some v))

def execClassHwmClear (who : Ident) (n : Ch) (v : Word) (s : State) : Host.Outcome State Fault Refusal :=
  .next (s.direct who (offChan n 0x148) (some v))

def execStagingGo (who : Ident) (v : Word) (s : State) : Host.Outcome State Fault Refusal :=
  .next (s.direct who 0x40000 (some v))

def execMapCfgWrite (who : Ident) (v : Word) (s : State) : Host.Outcome State Fault Refusal :=
  .next (s.direct who 0x200 (some v))

def execAliasWrite (who : Ident) (a : BitVec 24) (v : Word) (s : State) : Host.Outcome State Fault Refusal :=
  .next (s.direct who a.toNat (some v))

def execSemRead (who : Ident) (i : SemIx) (s : State) : Host.Outcome State Fault Refusal :=
  .next (s.direct who (0xC00 + 4 * i.val) none)

def execSemWrite (who : Ident) (i : SemIx) (v : Word) (s : State) : Host.Outcome State Fault Refusal :=
  .next (s.direct who (0xC00 + 4 * i.val) (some v))

def execEventAck (who : Ident) (e : Ev) (v : Word) (s : State) : Host.Outcome State Fault Refusal :=
  .next (s.direct who (0x1000 + 4 * e.val) (some v))

def execLogPop (who : Ident) (s : State) : Host.Outcome State Fault Refusal := .next (s.direct who 0x2000 none)

def execFlush (who : Ident) (v : Word) (s : State) : Host.Outcome State Fault Refusal := .next (s.direct who 0x200C (some v))

def execMailboxInboundWrite (who : Ident) (k : Mb) (v : Word) (s : State) : Host.Outcome State Fault Refusal :=
  .next (s.direct who (0x800 + 16 * k.val) (some v))

def execOutTake (who : Ident) (k : Mb) (v : Word) (s : State) : Host.Outcome State Fault Refusal :=
  .next (s.direct who (0x808 + 16 * k.val) (some v))

def execTtSnapshot (who : Ident) (n : Ch) (v : Word) (s : State) : Host.Outcome State Fault Refusal :=
  .next (s.direct who (offChan n 0x3F00) (some v))

def execTrackerSnapshot (who : Ident) (n : Ch) (v : Word) (s : State) : Host.Outcome State Fault Refusal :=
  .next (s.direct who (offChan n 0x3F20) (some v))

/-! ## Posted writes (R409) -/

/-- R409, R434: a posted write takes effect and the busy flag clears; the clamps of a quad that is off stop it (R322; log
entry 62, DESIGN CHOICE). -/
def State.postedEffect (s : State) : PostDom → State
  | .aon =>
    match s.mgmt.postAon.pend with
    | none => s
    | some (_, v) =>
      ((s.updPwr fun p => { p with patEn := v.extractLsb' 0 20 }).updMgmt fun g =>
        { g with postAon := { g.postAon with pend := none } }).tryW2
  | .tsv n =>
    match (s.mgmt.postTsv.get n).pend with
    | none => s
    | some (_, v) =>
      ((if s.quadOn n then s.updChan n fun c => { c with laneIdx := v.extractLsb' 0 8 } else s).updMgmt fun g =>
        { g with postTsv := upd g.postTsv n fun p => { p with pend := none } }).tryW2

def execPostedWriteEffect (d : PostDom) (s : State) : Host.Outcome State Fault Refusal := .next (s.postedEffect d)

/-! ## The sideband (R319, R396) -/

/-- R419: the bus is in use again, so the controller has accepted the interrupt that was raised (log entry 20, DEDUCED). -/
def State.i3cTransfer (s : State) (t : Fin 4) : State :=
  if (s.mgmt.i3c.get t).ibi.isSome then (s.updI3c t fun x => { x with ibi := none }).ibiPump t else s

/-- R319: a transfer that finds MGMT off is NACKed, and in Chrysalis it wakes management. -/
def State.i3cOff (s : State) (t : Fin 4) : State := (s.updI3c t fun x => { x with nack := true }).i3cAddressMatch

def State.i3cWrite (s : State) (t : Fin 4) (bytes : List Byte) : State :=
  if !s.mgmtOn then s.i3cOff t
  else
    let s := s.i3cTransfer t
    if bytes.length = 7 then
      s.access { who := sbIdent t, org := .sideband t, off := BitVec.ofNat 24 (bytesAt bytes 0 3),
                 wr := some (w32 (bytesAt bytes 3 4)) }
    else s.updI3c t fun x => { x with last := 3, nack := false }

def execI3cRegisterWrite (t : Fin 4) (bytes : List Byte) (s : State) : Host.Outcome State Fault Refusal :=
  .next (s.i3cWrite t bytes)

def State.i3cRead (s : State) (t : Fin 4) (bytes : List Byte) : State :=
  if !s.mgmtOn then s.i3cOff t
  else
    let s := s.i3cTransfer t
    let x := s.mgmt.i3c.get t
    let off := BitVec.ofNat 24 (bytesAt bytes 0 3)
    if bytes.length ≠ 3 then s.updI3c t fun x => { x with last := 3, nack := false, rdata := 3 }
    else if x.busy then s.updI3c t fun x => { x with nack := true }
    else
      match x.ready with
      | some (o, d) =>
        if o = off then s.updI3c t fun x => { x with ready := none, rdata := d, nack := false }
        else s.access { who := sbIdent t, org := .sideband t, off := off, wr := none }
      | none => s.access { who := sbIdent t, org := .sideband t, off := off, wr := none }

def execI3cRegisterRead (t : Fin 4) (bytes : List Byte) (s : State) : Host.Outcome State Fault Refusal :=
  .next (s.i3cRead t bytes)

def State.i3cStatus (s : State) (t : Fin 4) : State :=
  if !s.mgmtOn then s.i3cOff t
  else (s.i3cTransfer t).updI3c t fun x => { x with rdata := x.last.setWidth 40, nack := false }

def execI3cStatusRead (t : Fin 4) (s : State) : Host.Outcome State Fault Refusal := .next (s.i3cStatus t)

/-! ## The swap of the log banks (R425, R426) -/

/-- R426: waiting reads are served in arrival order, one word each. -/
def State.servePops (s : State) : List Access → State
  | [] => s
  | a :: r =>
    match s.mgmt.log.drain with
    | [] => s
    | w :: d => ((s.updLog fun l => { l with drain := d, pops := l.pops.tail }).accAnswer a (.ok w)).servePops r

def State.logBankSwap (s : State) : State :=
  if s.mgmtOn && s.mgmt.log.canSwap then
    let old := s.mgmt.log.unread
    let s := (s.updLog SilkLog.swap).levelCheck old
    s.servePops s.mgmt.log.pops
  else s

def execLogBankSwap (s : State) : Host.Outcome State Fault Refusal := .next s.logBankSwap

end Sys2Proof.Machine
end

