-- ==== Sys2Proof/Machine/Request.lean ====
section
/-! DEFINITION. Requests of the host: checks, policing, acceptance, forwarding in the module, fences, control-space accesses
and SR_ENTER (chapters 02, 05, 06; R73 to R94, R156 to R163, R191 to R198). -/

namespace Sys2Proof.Machine

/-! ## Kinds of request (R74, R76, R158) -/

/-- R74: the kind of an opcode that is not reserved. -/
def reqKind (opc : BitVec 6) : RKind :=
  match opc.toNat with
  | 1 => .rd64
  | 2 => .rd128
  | 3 => .ldr
  | 4 => .hint
  | 8 => .wr64
  | 9 => .wrp
  | 0xA => .stc
  | 0x20 => .fenceW
  | 0x21 => .fenceAll
  | 0x28 => .cfgRd
  | 0x29 => .cfgWr
  | 0x3E => .srEnter
  | _ => .amo

/-- R74: the credit that a request consumes. -/
def RKind.credit : RKind → Credit
  | .wr64 | .wrp => .write
  | .cfgRd | .cfgWr => .ctrl
  | .rd64 | .rd128 | .ldr | .hint | .stc | .amo | .mrd | .mwr | .fenceW | .fenceAll | .srEnter => .read

/-- R78: policed and decoded: memory requests and HINT. -/
def RKind.onPath : RKind → Bool
  | .rd64 | .rd128 | .ldr | .hint | .wr64 | .wrp | .stc | .amo => true
  | .mrd | .mwr | .fenceW | .fenceAll | .cfgRd | .cfgWr | .srEnter => false

def RKind.isFence : RKind → Bool
  | .fenceW | .fenceAll => true
  | .rd64 | .rd128 | .ldr | .hint | .wr64 | .wrp | .stc | .amo | .mrd | .mwr | .cfgRd | .cfgWr | .srEnter => false

/-- R74: alignment of the address, in bytes. -/
def RKind.align (k : RKind) (szf : BitVec 4) : Nat :=
  match k with
  | .rd64 | .rd128 | .hint | .wr64 | .wrp => 64
  | .ldr | .stc => 8
  | .amo => if szf.extractLsb' 0 2 = 0 then 4 else if szf.extractLsb' 0 2 = 1 then 8 else 16
  | .cfgRd | .cfgWr => 4
  | .mrd | .mwr | .fenceW | .fenceAll | .srEnter => 1

/-- R158. -/
def RKind.charged : RKind → Nat
  | .rd128 => 128
  | .hint => 0
  | .rd64 | .ldr | .wr64 | .wrp | .stc | .amo | .mrd | .mwr | .fenceW | .fenceAll | .cfgRd | .cfgWr | .srEnter => 64

/-! ## Checks 4 to 6 (R76, R77, R90, R94) -/

def Hlm.fieldCheck (h : Hlm) (k : RKind) (r : ReqHdr) : Option (BitVec 4) :=
  let cfg := k == .cfgRd || k == .cfgWr
  if (if k = .amo then r.szf.getLsbD 3 else r.szf != 0) || (cfg && r.addr.extractLsb' 24 16 != 0) then some errBADFLD
  else if r.addr.toNat % k.align r.szf ≠ 0 then some errMISALIGN
  else if h.srBlocked then some errPOWER
  else none

/-! ## Policing (R158 to R161) -/

inductive Colour where
  | green | yellow | red
  deriving DecidableEq, Repr

/-- R160: the colour of a charge of `l` thousandths of a byte, and the port after it. -/
def Port.police (p : Port) (l : Nat) : Colour × Port :=
  if !p.en then (.green, { p with green := p.green + 1 })
  else if p.tokP < max l 1 then (.red, { p with red := p.red + 1 })
  else if p.tokC < max l 1 then (.yellow, { p with tokP := p.tokP - l, yellow := p.yellow + 1 })
  else (.green, { p with tokC := p.tokC - l, tokP := p.tokP - l, green := p.green + 1 })

/-- R158: the charged length of a request of a class, in thousandths of a byte. -/
def Hlm.chargeOf (h : Hlm) (k : RKind) (cls : BitVec 4) : Nat :=
  1000 * (k.charged + (h.classOvh.get (Fin.ofNat 16 cls.toNat)).toNat)

/-! ## Refusals (R77, R78, R88, R89) -/

/-- The record of a tag whose request was refused, until its response is sent. -/
def refusedTag (h : Hlm) (k : RKind) (r : ReqHdr) (now : Nat) : TagRec :=
  { port := r.port, tag := r.tag, seq := h.seq, kind := k, ch := none, idx := none, accAt := now, refused := true,
    accepted := false, aux := r.addr.extractLsb' 0 32 }

/-- R77, R198: refuse a request whose credit has been consumed; a HINT is dropped (R78). -/
def Hlm.refuse (h : Hlm) (k : RKind) (r : ReqHdr) (code : BitVec 4) (now : Nat) : Hlm :=
  let h := h.creditDue k.credit
  if k = .hint then h
  else { h with tags := h.tags ++ [refusedTag h k r now] }.refuseErr r.port r.tag code (r.addr.extractLsb' 0 32) true

/-- R161: refuse with THROTTLED. -/
def Hlm.throttle (h : Hlm) (k : RKind) (r : ReqHdr) (now : Nat) : Hlm :=
  let h := h.creditDue k.credit
  if k = .hint then h
  else { h with tags := h.tags ++ [refusedTag h k r now], txq := h.txq ++ [outMsg opTHROTTLED r.port r.tag] }

def Hlm.hasTag (h : Hlm) (r : ReqHdr) : Bool := h.tags.any fun t => t.port == r.port && t.tag == r.tag

/-- R89: no credit of the kind: nothing is consumed or returned. Where the request's tag is already outstanding, the earlier
request keeps it (log entry 81, DESIGN CHOICE). -/
def Hlm.noCredit (h : Hlm) (k : RKind) (r : ReqHdr) (now : Nat) : Hlm :=
  let h := { h with nocredit := satInc h.nocredit }
  if k = .hint then h
  else
    let dup := h.hasTag r
    let h := if dup then h else { h with tags := h.tags ++ [refusedTag h k r now] }
    h.refuseErr r.port r.tag errNOCREDIT (r.addr.extractLsb' 0 32) (!dup)

/-- R77 check 3: the tag is outstanding; the earlier request goes on. -/
def Hlm.tagDup (h : Hlm) (k : RKind) (r : ReqHdr) : Hlm :=
  let h := { h with tagdup := satInc h.tagdup }.creditDue k.credit
  h.refuseErr r.port r.tag errTAGDUP (r.addr.extractLsb' 0 32) false

/-! ## Acceptance -/

/-- R196: a fence of the port is incomplete. -/
def Hlm.fenced (h : Hlm) (port : BitVec 4) : Bool := h.fences.any (·.port == port)

def Hlm.addTag (h : Hlm) (k : RKind) (r : ReqHdr) (ch : Option Ch) (now : Nat) : Hlm :=
  let t : TagRec :=
    { port := r.port, tag := r.tag, seq := h.seq, kind := k, ch := ch, idx := none, accAt := now, aux := r.addr.extractLsb' 0 32 }
  { h with tags := h.tags ++ [t] }

/-- The accepted form of a memory request or HINT. -/
def mkRq (h : Hlm) (p : Port) (k : RKind) (x : Msg) (d : Dec) (ch : Ch) (yellow : Bool) (now : Nat) : Rq :=
  { seq := h.seq, kind := k, port := x.hdr.port, tag := x.hdr.tag, cls := p.cls, ch := ch, twin := d.twin, half := d.half,
    loc := d.loc, addr := x.hdr.addr, data := if k = .wrp then x.data.extractLsb' 64 512 else x.data.setWidth 512,
    mask := if k = .wrp then x.data.extractLsb' 0 64 else 0, aop := x.opc.extractLsb' 0 4, asz := x.hdr.szf.extractLsb' 0 2,
    nr := x.hdr.szf.getLsbD 2, yellow := yellow, accAt := now, held := h.fenced x.hdr.port, after := p.clsFrom }

/-- R31, R34, R191, R196: an accepted memory request takes its place in the module. -/
def Hlm.takeIn (h : Hlm) (r : Rq) (hd : ReqHdr) (now : Nat) : Hlm :=
  let t := if r.kind = .hint then h else h.addTag r.kind hd (some r.ch) now
  let t := { t with seq := h.seq + 1 }
  if r.kind = .wr64 ∨ r.kind = .wrp then { t with posted := t.posted ++ [r] }
  else
    match if r.kind = .rd64 ∧ !r.held then h.forwardOf r.port r.seq r.addr else none with
    | some w => { t with txq := t.txq ++ [forwardMsg r.port r.tag w],
                         tags := t.tags.map fun x => if x.seq = h.seq ∧ x.port = r.port then { x with ch := none } else x }
    | none => { t with ingress := t.ingress ++ [r] }

/-- Channel of a decoded address whose engine or partner is in channel reset (check 9). -/
def State.unavail (s : State) (d : Dec) : Bool :=
  d.status == 3 || (s.chan.get d.chan).inReset || (d.twin && (s.chan.get (partner d.chan)).inReset)

/-- R77 checks 8 to 10: the error, none where they pass. -/
def State.placeCheck (s : State) (k : RKind) (d : Dec) : Option (BitVec 4) :=
  if d.status = 1 ∨ d.status = 2 then some errADDR
  else if s.unavail d then some errUNAVAIL
  else if k = .rd128 ∧ !d.twin then some errMODE
  else if k = .rd128 ∧ d.half then some errMISALIGN
  else none

/-- R77 checks 8 to 10, R107, and acceptance of a memory request or HINT. A 64-byte request to half 1 of a joined pair goes to the
leader's port, as its engine serves both channels (R38; log entry 53, DEDUCED). -/
def State.decodeReq (s : State) (m : Mod) (k : RKind) (x : Msg) (yellow : Bool) : State :=
  let now := s.now
  let d := s.map.decode x.hdr.addr
  let s := if d.status = 1 ∨ d.status = 2 then s else s.updMap fun q => { q with frozen := true }
  match s.placeCheck k d with
  | some e => s.updHlm m fun h => h.refuse k x.hdr e now
  | none =>
    let p := s.port.get (gport m x.hdr.port)
    let ch := s.map.server d.chan
    (s.updHlm m fun h => h.takeIn (mkRq h p k x d ch yellow now) x.hdr now).stir

/-- R77 check 7. -/
def State.policeReq (s : State) (m : Mod) (k : RKind) (x : Msg) : State :=
  let now := s.now
  let g := gport m x.hdr.port
  let h := s.hlm.get m
  let (c, p) := (s.port.get g).police (h.chargeOf k (s.port.get g).cls)
  let s := s.updPort g fun _ => p
  match c with
  | .red => (s.countRed m).updHlm m fun h => h.throttle k x.hdr now
  | .yellow => s.decodeReq m k x true
  | .green => s.decodeReq m k x false

/-! ## Control-space accesses (R90, R91) -/

/-- R91: the oldest access of the port is performed if none of the port is in progress, no fence holds it and the port's
earlier writes have drained. -/
def State.startCfg (s : State) (m : Mod) (port : BitVec 4) : State :=
  let h := s.hlm.get m
  match h.cfgq.find? (·.port == port) with
  | none => s
  | some c =>
    if c.started || c.held || h.postedBefore port c.seq || !s.mgmtOn then s
    else
      let s := s.updHlm m fun h => { h with cfgq := h.cfgq.map fun q => if q = c then { q with started := true } else q }
      s.access { who := portIdent m port, org := .inband m c.seq, off := c.off, wr := if c.write then some c.v else none }

def State.acceptCfg (s : State) (m : Mod) (k : RKind) (x : Msg) : State :=
  let now := s.now
  let s := s.updHlm m fun h =>
    let c : CfgReq :=
      { seq := h.seq, port := x.hdr.port, tag := x.hdr.tag, write := k == .cfgWr, off := x.hdr.addr.extractLsb' 0 24,
        v := x.data.setWidth 32, held := h.fenced x.hdr.port, started := false }
    { h.addTag k x.hdr none now with cfgq := h.cfgq ++ [c], seq := h.seq + 1 }
  s.startCfg m x.hdr.port

/-! ## Fences and SR_ENTER -/

/-- R195. -/
def Hlm.acceptFence (h : Hlm) (k : RKind) (r : ReqHdr) (now : Nat) : Hlm :=
  { h.addTag k r none now with
    fences := h.fences ++ [{ seq := h.seq, port := r.port, tag := r.tag, all := k == .fenceAll }], seq := h.seq + 1 }

/-- R94, R312. -/
def State.acceptSr (s : State) (m : Mod) (r : ReqHdr) : State :=
  let now := s.now
  (s.updHlm m fun h =>
    { h.addTag .srEnter r none now with srBlocked := true, srTag := some (r.port, r.tag), seq := h.seq + 1 }).stir.srStart

/-! ## One request (R77) -/

/-- R243, EV356: a request whose header fails its parity check is refused with ERROR HWFAULT and not performed. -/
def State.badHeader (s : State) (m : Mod) (k : RKind) (r : ReqHdr) : State :=
  let now := s.now
  (s.updHlm m fun h => h.refuse k r errHWFAULT now).raiseG 356 1 (BitVec.ofNat 32 m.val)

/-- The checks after the opcode, in order; `bad`: the parity of the header has failed. -/
def State.checkReq (s : State) (m : Mod) (x : Msg) (bad : Bool) : State :=
  let now := s.now
  let k := reqKind x.opc
  let h := s.hlm.get m
  if !h.creditAvail k.credit then s.updHlm m fun h => h.noCredit k x.hdr now
  else
    let s := s.updHlm m fun h => h.creditUse k.credit
    if k != .hint && h.hasTag x.hdr then s.updHlm m fun h => h.tagDup k x.hdr
    else if bad then s.badHeader m k x.hdr
    else
      match h.fieldCheck k x.hdr with
      | some e => s.updHlm m fun h => h.refuse k x.hdr e now
      | none =>
        if k.onPath then s.policeReq m k x
        else if k.isFence then (s.updHlm m fun h => h.acceptFence k x.hdr now).stir
        else if k = .srEnter then s.acceptSr m x.hdr
        else s.acceptCfg m k x

/-- R77, R311: a request that has arrived. -/
def State.doReq (s : State) (m : Mod) (x : Msg) (bad : Bool := false) : State :=
  match reqSlots x.opc x.hdr.szf with
  | none => s.protoError m
  | some _ =>
    let k := reqKind x.opc
    (if k.onPath || k.isFence then s.abortEntry 1 else s).checkReq m x bad

/-- A request of module m is carried out: the oldest message received in flits, or, where none waits, one that arrives on
an active link now (log entry 5, DESIGN CHOICE). What a link reset in progress finds is settled at once, but for the tags and credits that the messages
behind it are checked against (R77, R96). -/
def State.recvReq (s : State) (m : Mod) (x : Msg) (bad : Bool := false) : State :=
  let h := s.hlm.get m
  match h.flit.inbox with
  | [] => if h.link == .active then s.doReq m x bad else s
  | y :: r =>
    if y = x then
      let s := (s.updHlm m fun h => { h with flit := { h.flit with inbox := r } }).doReq m x bad
      if h.link == .active then s else s.updHlm m Hlm.void
    else s

/-- A message without data, or with the data given. -/
def reqMsg (opc : BitVec 6) (h : ReqHdr) (data : BitVec 576) : Msg := { opc := opc, hdr := h, data := data }

/-- R75: the slots of a compare-and-swap: 8-byte or 16-byte operands. -/
def casData (h : ReqHdr) (cmp swp : BitVec 128) : BitVec 576 :=
  if h.szf.extractLsb' 0 2 = 2 then (swp ++ cmp).setWidth 576
  else (swp.extractLsb' 0 64 ++ cmp.extractLsb' 0 64).setWidth 576

/-- R63: a NOP fills a slot. -/
def execNop (_m : Mod) (_h : ReqHdr) (s : State) : Host.Outcome State Fault Refusal := .next s

def execRd64 (m : Mod) (h : ReqHdr) (s : State) : Host.Outcome State Fault Refusal := .next (s.recvReq m (reqMsg 0x01 h 0))

def execRd128 (m : Mod) (h : ReqHdr) (s : State) : Host.Outcome State Fault Refusal := .next (s.recvReq m (reqMsg 0x02 h 0))

def execLdr (m : Mod) (h : ReqHdr) (s : State) : Host.Outcome State Fault Refusal := .next (s.recvReq m (reqMsg 0x03 h 0))

def execHint (m : Mod) (h : ReqHdr) (s : State) : Host.Outcome State Fault Refusal := .next (s.recvReq m (reqMsg 0x04 h 0))

def execWr64 (m : Mod) (h : ReqHdr) (data : Line) (s : State) : Host.Outcome State Fault Refusal :=
  .next (s.recvReq m (reqMsg 0x08 h (data.setWidth 576)))

def execWrp (m : Mod) (h : ReqHdr) (mask : BitVec 64) (data : Line) (s : State) : Host.Outcome State Fault Refusal :=
  .next (s.recvReq m (reqMsg 0x09 h (data ++ mask)))

def execStc (m : Mod) (h : ReqHdr) (value : BitVec 64) (s : State) : Host.Outcome State Fault Refusal :=
  .next (s.recvReq m (reqMsg 0x0A h (value.setWidth 576)))

def execAmoAdd (m : Mod) (h : ReqHdr) (a : BitVec 64) (s : State) : Host.Outcome State Fault Refusal :=
  .next (s.recvReq m (reqMsg 0x10 h (a.setWidth 576)))

def execAmoSwap (m : Mod) (h : ReqHdr) (a : BitVec 64) (s : State) : Host.Outcome State Fault Refusal :=
  .next (s.recvReq m (reqMsg 0x11 h (a.setWidth 576)))

def execAmoAnd (m : Mod) (h : ReqHdr) (a : BitVec 64) (s : State) : Host.Outcome State Fault Refusal :=
  .next (s.recvReq m (reqMsg 0x12 h (a.setWidth 576)))

def execAmoOr (m : Mod) (h : ReqHdr) (a : BitVec 64) (s : State) : Host.Outcome State Fault Refusal :=
  .next (s.recvReq m (reqMsg 0x13 h (a.setWidth 576)))

def execAmoXor (m : Mod) (h : ReqHdr) (a : BitVec 64) (s : State) : Host.Outcome State Fault Refusal :=
  .next (s.recvReq m (reqMsg 0x14 h (a.setWidth 576)))

def execAmoSmin (m : Mod) (h : ReqHdr) (a : BitVec 64) (s : State) : Host.Outcome State Fault Refusal :=
  .next (s.recvReq m (reqMsg 0x15 h (a.setWidth 576)))

def execAmoSmax (m : Mod) (h : ReqHdr) (a : BitVec 64) (s : State) : Host.Outcome State Fault Refusal :=
  .next (s.recvReq m (reqMsg 0x16 h (a.setWidth 576)))

def execAmoUmin (m : Mod) (h : ReqHdr) (a : BitVec 64) (s : State) : Host.Outcome State Fault Refusal :=
  .next (s.recvReq m (reqMsg 0x17 h (a.setWidth 576)))

def execAmoUmax (m : Mod) (h : ReqHdr) (a : BitVec 64) (s : State) : Host.Outcome State Fault Refusal :=
  .next (s.recvReq m (reqMsg 0x18 h (a.setWidth 576)))

def execAmoCas (m : Mod) (h : ReqHdr) (cmp swp : BitVec 128) (s : State) : Host.Outcome State Fault Refusal :=
  .next (s.recvReq m (reqMsg 0x19 h (casData h cmp swp)))

def execFenceW (m : Mod) (h : CtlHdr) (s : State) : Host.Outcome State Fault Refusal :=
  .next (s.recvReq m (reqMsg 0x20 h.hdr 0) h.bad)

def execFenceAll (m : Mod) (h : CtlHdr) (s : State) : Host.Outcome State Fault Refusal :=
  .next (s.recvReq m (reqMsg 0x21 h.hdr 0) h.bad)

def execCfgRd (m : Mod) (h : CtlHdr) (s : State) : Host.Outcome State Fault Refusal :=
  .next (s.recvReq m (reqMsg 0x28 h.hdr 0) h.bad)

def execCfgWr (m : Mod) (h : CtlHdr) (v : Word) (s : State) : Host.Outcome State Fault Refusal :=
  .next (s.recvReq m (reqMsg 0x29 h.hdr (v.setWidth 576)) h.bad)

def execSrEnter (m : Mod) (h : CtlHdr) (s : State) : Host.Outcome State Fault Refusal :=
  .next (s.recvReq m (reqMsg 0x3E h.hdr 0) h.bad)

/-- R94: the acceptance of SR_ENTER reaches another module. -/
def State.srArrives (s : State) (m : Mod) : State :=
  if s.pwr.bySr then s.updHlm m fun h => { h with srBlocked := true } else s

def execSrEnterAcceptanceArrival (m : Mod) (s : State) : Host.Outcome State Fault Refusal := .next (s.srArrives m)

/-! ## Completion of fences and drains (R195 to R198) -/

/-- The access waits in the fabric (R35, R354). -/
def State.accWaits (s : State) (m : Mod) (seq : Nat) : Bool :=
  s.mgmt.mb.toList.any fun b => b.waiting.any fun a => a.org == .inband m seq

/-- R195: what FENCE.W waits for. -/
def State.writesReached (s : State) (m : Mod) (f : Fence) : Bool :=
  let h := s.hlm.get m
  let mine := fun (r : Rq) => r.port == f.port && decide (r.seq < f.seq)
  !(h.posted.any mine) && !(h.ingress.any fun r => mine r && (r.kind == .amo || r.kind == .stc)) &&
    h.cfgq.all fun c => !(c.port == f.port && decide (c.seq < f.seq) && c.write && (!c.started || s.accWaits m c.seq))

/-- R195: what FENCE.ALL waits for beside it: no response is owed to an earlier request of the port that was accepted. -/
def Hlm.allAnswered (h : Hlm) (f : Fence) : Bool :=
  h.tags.all fun t => !(t.port == f.port && decide (t.seq < f.seq) && t.accepted && !t.kind.isFence && t.kind != .srEnter)

def State.fenceMet (s : State) (m : Mod) (f : Fence) : Bool :=
  s.writesReached m f && (!f.all || (s.hlm.get m).allAnswered f)

/-- R195, R196: the oldest fence of the port that is not complete is complete: its FENCE_DONE is on its way, and it holds
what it holds until that is sent. -/
def State.fenceComplete (s : State) (m : Mod) (port : BitVec 4) : State :=
  match (s.hlm.get m).fences.find? fun f => f.port == port && !f.done with
  | none => s
  | some f =>
    if s.fenceMet m f then
      s.updHlm m fun h =>
        { h with fences := h.fences.map fun x => if x = f then { x with done := true } else x,
                 txq := h.txq ++ [{ outMsg opFENCE f.port f.tag with credit := .read }] }
    else s

def execFenceComplete (m : Mod) (port : BitVec 4) (s : State) : Host.Outcome State Fault Refusal :=
  .next (s.fenceComplete m port)

/-- R198: ERROR responses whose drain has completed are sent. -/
def Hlm.releaseErrs (h : Hlm) (port : BitVec 4) : Hlm :=
  let go := fun (e : HeldErr) => e.port == port && !h.postedBefore port e.seq
  { h with
    errs := h.errs.filter fun e => !go e,
    txq := h.txq ++ (h.errs.filter go).map fun e =>
      { outMsg opERROR e.port e.tag with status := e.code, aux := e.aux, retire := e.retire } }

/-- R91, R196, R198: a drain of the port is complete, or a fence that held its next access is done. -/
def State.portDrainComplete (s : State) (m : Mod) (port : BitVec 4) : State :=
  (s.updHlm m fun h => h.releaseErrs port).startCfg m port

def execPortDrainComplete (m : Mod) (port : BitVec 4) (s : State) : Host.Outcome State Fault Refusal :=
  .next (s.portDrainComplete m port)

end Sys2Proof.Machine
end

