-- ==== Sys2Proof/Machine/Exaux.lean ====
section
/-! DEFINITION. The Exaux commands (chapter 12, R362 to R394): each row carries out the command that firmware has taken
from a mailbox channel with a tag, checks it in the order of R489, and answers it. -/

namespace Sys2Proof.Machine

/-! ## Words, arguments and windows (R362, R363, R489) -/

/-- R362: a layout of `n` bytes does not fit. -/
def tooLong (w : Word) (n : Nat) : Bool := decide (4096 < winBase w + n)

/-- Write a field of `n` bytes of a command's layout. -/
def State.putField (s : State) (k : Mb) (w : Word) (off n v : Nat) : State := s.winPutN k (winBase w + off) v n

/-- R365: commands that set one value: they start in the order in which firmware took them. A command that works on what it holds
need not wait for one on another channel: it was refused or not at its take. -/
def sameValue (w v : Word) : Bool :=
  let o := (cmdOpcode w).toNat
  cmdOpcode w == cmdOpcode v && !(o ∈ [0x30, 0x31, 0x38, 0x39, 0x48, 0x58, 0x5A, 0x5B, 0x60, 0x68])

/-- R365: at its take a command's resource was held. -/
def State.cmdBusy (s : State) (k : Mb) (tag : BitVec 2) : Bool := (s.mb k).cmds.any fun c => c.tag == tag && c.busy

/-- R365: the next command of MBk to start, once no earlier one that sets its value on another channel still waits to start. -/
def State.nextCmd (s : State) (k : Mb) : Option FwCmd :=
  ((s.mb k).cmds.find? (!·.running)).filter fun c =>
    (List.finRange 24).all fun j => (s.mb j).cmds.all fun x =>
      x.running || decide (c.seq ≤ x.seq) || !sameValue x.word c.word

/-- The command of opcode `op` that MBk has in progress under this tag, where it is the next to start and `sel` selects it by its
action. The loader answers every command but GET_VERSION and RESET with STATE (R391); before READY only a channel reset is
answered, with STATE (R435). -/
def State.exaux (s : State) (k : Mb) (tag : BitVec 2) (op : BitVec 7) (sel : Word → Bool) (f : Word → State) : State :=
  if !s.fwRuns then s
  else
    match s.nextCmd k with
    | none => s
    | some c =>
      if c.tag != tag || cmdOpcode c.word != op || !sel c.word then s
      else if s.fw.st == .loader && op != 0x01 && op != 0x78 then s.answer k tag stSTATE 0
      else if s.fw.st == .rom && !(op == 0x78 && argBits c.word 8 4 == 2) then s
      else f c.word

/-- R366: the command's answer waits for its work to end. -/
def State.setRunning (s : State) (k : Mb) (tag : BitVec 2) : State :=
  s.updMb k fun b => { b with cmds := b.cmds.map fun c => if c.tag = tag then { c with running := true } else c }

/-- R489: the status of the first check that fails. -/
def firstBad : List (Bool × BitVec 4) → Option (BitVec 4)
  | [] => none
  | (true, st) :: _ => some st
  | (false, _) :: r => firstBad r

/-- R489: a command that fails a check is answered with its status and has no effect; otherwise it is carried out. -/
def State.checked (s : State) (k : Mb) (tag : BitVec 2) (l : List (Bool × BitVec 4)) (f : State) : State :=
  match firstBad l with
  | some st => s.answer k tag st 0
  | none => f

/-- The mapped channels that an argument names (R375, R376). -/
def State.named (s : State) (all : Bool) (n : Nat) : List Ch :=
  if all then allCh.filter fun c => s.map.mapped.getLsbD c.val else [Fin.ofNat 64 n]

/-! ## Information and ownership (R370, R372) -/

def State.getVersion (s : State) (k : Mb) (tag : BitVec 2) : State :=
  s.exaux k tag 0x01 (fun _ => true) fun w =>
    let form := argBits w 0 2
    let bad := decide (1 < form) || (form == 0 && argBits w 2 10 != 0) || (form == 1 && argBits w 2 4 != 0)
    s.checked k tag [(bad, stBADARG)] <|
      let s := if form = 0 then s
        else
          let s := s.putField k w 0x00 4 0x100
          let s := s.putField k w 0x04 4 Config.fwVersion.toNat
          let s := s.putField k w 0x08 4 Config.romVersion.toNat
          let s := s.putField k w 0x0C 4 s.fw.running.secVer.toNat
          let s := s.putField k w 0x10 4 0x10
          s.putField k w 0x14 4 (b2n (s.fw.st == .loader))
      s.answer k tag stOK 0x10

def execGetVersion (k : Mb) (tag : BitVec 2) (s : State) : Host.Outcome State Fault Refusal := .next (s.getVersion k tag)

/-- R343, R365, R372: the steps of R343. The commands that firmware has taken from the channel before are started first, so that they are
carried out and only their answers are discarded (log entry 78, DESIGN CHOICE). -/
def State.setMailboxOwner (s : State) (k : Mb) (tag : BitVec 2) : State :=
  s.exaux k tag 0x08 (fun _ => true) fun w =>
    let p := s.winField k w 0 2
    let owner : Option Ident := if p = 0x1FF then none else some (BitVec.ofNat 11 p)
    s.checked k tag [(argBits w 4 2 != 0 || (decide (320 ≤ p) && p != 0x1FF), stBADARG)] <|
      if (s.mb (Fin.ofNat 24 (argBits w 0 4))).cmds.any (!·.running) then s
      else (s.rebind (Fin.ofNat 24 (argBits w 0 4)) owner).answer k tag stOK 0

def execSetMailboxOwner (k : Mb) (tag : BitVec 2) (s : State) : Host.Outcome State Fault Refusal :=
  .next (s.setMailboxOwner k tag)

/-! ## Power (R373) -/

/-- R314: an entry by SR_ENTER is in progress. -/
def State.srBusy (s : State) : Bool := s.pwr.bySr && s.pwr.ph != .none

/-- R373: the checks that every action has. -/
def State.powerChecks (s : State) (w : Word) : List (Bool × BitVec 4) :=
  [(argBits w 10 2 != 0 || argBits w 2 2 != 0 || argBits w 8 2 == 3 || argBits w 0 2 == 3, stBADARG), (s.srBusy, stBUSY)]

/-- R310, R315, R373: the target is written; for Imago a wake starts, or a native entry in deferral is abandoned. -/
def State.enterPower (s : State) (w : Word) : State :=
  let target : BitVec 2 := w.extractLsb' 0 2
  if target ≠ 0 then s.writePwrMode target
  else if s.pwr.state == .chrysMgmt && identClass (cmdStamp w) == 1 then s.writePwrMode 0
  else if s.pwr.ph == .defer then s.abortEntry 4
  else s.updPwr fun p => { p with target := 0 }

/-- Action 0b00, and the refusal of action 0b11. -/
def State.powerStateEnter (s : State) (k : Mb) (tag : BitVec 2) : State :=
  s.exaux k tag 0x10 (fun w => argBits w 8 2 == 0 || argBits w 8 2 == 3) fun w =>
    s.checked k tag (s.powerChecks w) <| (s.enterPower w).answer k tag stOK 0

def execPowerStateEnter (k : Mb) (tag : BitVec 2) (s : State) : Host.Outcome State Fault Refusal :=
  .next (s.powerStateEnter k tag)

def State.powerStateSetIdle (s : State) (k : Mb) (tag : BitVec 2) : State :=
  s.exaux k tag 0x10 (fun w => argBits w 8 2 == 1) fun w =>
    s.checked k tag ((argBits w 0 2 == 0, stBADARG) :: s.powerChecks w) <|
      (s.updFw fun f => { f with idle := some { target := w.extractLsb' 0 2, ms := 2 ^ argBits w 4 4 } }).answer k tag stOK 0

def execPowerStateSetIdle (k : Mb) (tag : BitVec 2) (s : State) : Host.Outcome State Fault Refusal :=
  .next (s.powerStateSetIdle k tag)

def State.powerStateClearIdle (s : State) (k : Mb) (tag : BitVec 2) : State :=
  s.exaux k tag 0x10 (fun w => argBits w 8 2 == 2) fun w =>
    s.checked k tag (s.powerChecks w) <| (s.updFw fun f => { f with idle := none }).answer k tag stOK 0

def execPowerStateClearIdle (k : Mb) (tag : BitVec 2) (s : State) : Host.Outcome State Fault Refusal :=
  .next (s.powerStateClearIdle k tag)

/-- R310, R373: the deferral conditions have held for the policy's time without a break, and firmware starts the entry. -/
def State.idlePolicyExpiry (s : State) : State :=
  match s.fw.idle with
  | none => s
  | some i =>
    if s.mgmtOn && s.fw.st == .ready && s.pwr.ph == .none && s.quietNow && !s.owesPower
        && (s.pwr.state == .imago || (s.pwr.state == .pupa && i.target == 2)) then
      ((s.advance (s.quietSince + i.ms * 1000000)).writePwrMode i.target).pririWait
    else s

def execIdlePolicyExpiry (s : State) : Host.Outcome State Fault Refusal := .next s.idlePolicyExpiry

/-! ## Thermal, refresh and tracker policy (R374 to R376) -/

/-- A temperature register as the unsigned degrees that the window holds. -/
def State.thermGet (s : State) (k : Mb) (w : Word) : State :=
  let t := s.mgmt.therm
  let s := s.putField k w 0x00 2 t.floor.toNat
  let s := s.putField k w 0x02 2 t.bMax.toNat
  let s := s.putField k w 0x04 1 t.warn.toNat
  let s := s.putField k w 0x05 1 t.throttle.toNat
  let s := s.putField k w 0x06 2 (ratFloorNat t.budget 65535)
  let s := s.putField k w 0x08 4 (t.param 0)
  let s := s.putField k w 0x0C 4 (t.param 1)
  let s := s.putField k w 0x10 4 (t.param 2)
  let s := s.putField k w 0x14 4 (t.param 3)
  let s := s.putField k w 0x18 4 (t.param 4)
  let s := s.putField k w 0x1C 4 (t.param 5)
  s.putField k w 0x20 4 (t.param 6)

/-- Action 0b00, and the refusal of action 0b11. -/
def State.thermalPolicyGet (s : State) (k : Mb) (tag : BitVec 2) : State :=
  s.exaux k tag 0x18 (fun w => argBits w 0 2 == 0 || argBits w 0 2 == 3) fun w =>
    s.checked k tag [(argBits w 2 4 != 0 || argBits w 0 2 == 3, stBADARG)] <| (s.thermGet k w).answer k tag stOK 0

def execThermalPolicyGet (k : Mb) (tag : BitVec 2) (s : State) : Host.Outcome State Fault Refusal :=
  .next (s.thermalPolicyGet k tag)

def State.thermalPolicySetFloor (s : State) (k : Mb) (tag : BitVec 2) : State :=
  s.exaux k tag 0x18 (fun w => argBits w 0 2 == 1) fun w =>
    let f := s.winField k w 0 1
    let b := s.winField k w 2 2
    s.checked k tag [(argBits w 2 4 != 0 || decide (64 < f) || s.winField k w 1 1 != 0, stBADARG)] <|
      (s.updTherm fun t => { t with pendFloor := some (BitVec.ofNat 7 f, BitVec.ofNat 16 b) }).answer k tag stOK 0

def execThermalPolicySetFloor (k : Mb) (tag : BitVec 2) (s : State) : Host.Outcome State Fault Refusal :=
  .next (s.thermalPolicySetFloor k tag)

def State.thermalPolicySetThresholds (s : State) (k : Mb) (tag : BitVec 2) : State :=
  s.exaux k tag 0x18 (fun w => argBits w 0 2 == 2) fun w =>
    let a := s.winField k w 4 1
    let b := s.winField k w 5 1
    let bad := argBits w 2 4 != 0 || decide (a < 60) || decide (90 < a) || decide (b < 65) || decide (95 < b)
      || decide (b < a + 5)
    s.checked k tag [(bad, stBADARG)] <|
      (s.updTherm fun t => { t with pendThr := some (BitVec.ofNat 8 a, BitVec.ofNat 8 b) }).answer k tag stOK 0

def execThermalPolicySetThresholds (k : Mb) (tag : BitVec 2) (s : State) : Host.Outcome State Fault Refusal :=
  .next (s.thermalPolicySetThresholds k tag)

def State.refreshFloor (s : State) (k : Mb) (tag : BitVec 2) : State :=
  s.exaux k tag 0x20 (fun _ => true) fun w =>
    let all := argBits w 3 1 == 1
    let n := argBits w 4 6
    let v : BitVec 2 := w.extractLsb' 0 2
    let bad := argBits w 10 2 != 0 || argBits w 2 1 != 0 || v == 3 || (all && n != 0)
    s.checked k tag [(bad, stBADARG), (!all && s.unmapped (Fin.ofNat 64 n), stSTATE)] <|
      let s := s.updFw fun f =>
        { f with hostFloor := (s.named all n).foldl (fun h c => upd h c fun _ => v) f.hostFloor }
      s.applyFloors.answer k tag stOK 0

def execRefreshFloor (k : Mb) (tag : BitVec 2) (s : State) : Host.Outcome State Fault Refusal := .next (s.refreshFloor k tag)

/-- R268: values that CHn_DIST_CTRL accepts. -/
def State.distOk (s : State) (n : Ch) (v : Nat × Nat) : Bool := decide (256 ≤ v.1) && decide (v.1 ≤ 2048) && s.paceOk n v.2

/-- R376: thresh and pace of the preset, for one channel. -/
def State.distPreset (s : State) (k : Mb) (w : Word) (n : Ch) : Nat × Nat :=
  if argBits w 0 2 = 0 then (2048, 0)
  else if argBits w 0 2 = 1 then (1024, (s.tim (s.map.server n)).tRCck)
  else (s.winField k w 4 2, s.winField k w 6 1)

def State.trackerPolicy (s : State) (k : Mb) (tag : BitVec 2) : State :=
  s.exaux k tag 0x21 (fun _ => true) fun w =>
    let t := s.winField k w 0 4
    let all := decide (2 ^ 31 ≤ t)
    let n := t % 64
    let chs := s.named all n
    let bad := argBits w 2 4 != 0 || argBits w 0 2 == 3 || t % 2 ^ 31 / 64 != 0 || (all && n != 0)
      || chs.any fun c => !s.distOk c (s.distPreset k w c)
    s.checked k tag [(bad, stBADARG), (!all && s.unmapped (Fin.ofNat 64 n), stSTATE)] <|
      let s' := chs.foldl (fun (x : State) c =>
        let v := s.distPreset k w c
        x.updChan c fun y => y.updCfg fun g => { g with thresh := BitVec.ofNat 12 v.1, pace := BitVec.ofNat 8 v.2 }) s
      s'.answer k tag stOK 0

def execTrackerPolicy (k : Mb) (tag : BitVec 2) (s : State) : Host.Outcome State Fault Refusal := .next (s.trackerPolicy k tag)

/-! ## Scrub (R226 to R229, R377, R378) -/

/-- R377: the arguments of a pass. -/
def State.scrubStart (s : State) (k : Mb) (tag : BitVec 2) : State :=
  s.exaux k tag 0x28 (fun _ => true) fun w =>
    let start := s.winField k w 0x00 8
    let len := s.winField k w 0x08 8
    let m := s.winField k w 0x10 4
    let pace := s.winField k w 0x14 4
    let cap := s.map.capacity
    let stop := min (start + len) cap
    let bad := argBits w 0 6 != 0 || s.passBad start len m pace
    let b := s.mgmt.scrub
    let low := (s.map.lineAt start 0).cutFirst
    let high := (s.map.lineAt (stop - 64) 0).cutLast
    s.checked k tag [(tooLong w 928, stLENGTH), (bad, stBADARG), (b.held || b.running, stBUSY),
        (m == 2 && (low || high), stSTATE)] <|
      (s.startPass { start := start, len := len, mode := m, pace := pace, pattern := s.winField k w 0x18 8 } (some k) (cmdStamp w)
        (winBase w) fun _ => true).answer k tag stOK 0

def execScrubStart (k : Mb) (tag : BitVec 2) (s : State) : Host.Outcome State Fault Refusal := .next (s.scrubStart k tag)

/-- R378: the pass was started from another channel by a sender of another class, and the sender is not sideband; any sender may
abort a pass of firmware. -/
def Scrub.foreign (b : Scrub) (k : Mb) (w : Word) : Bool :=
  b.ident != fwIdent && b.mb != some k && identClass b.ident != identClass (cmdStamp w) && identClass (cmdStamp w) != 1

def State.scrubAbort (s : State) (k : Mb) (tag : BitVec 2) : State :=
  s.exaux k tag 0x29 (fun _ => true) fun w =>
    s.checked k tag [(cmdArg w != 0, stBADARG), (!s.mgmt.scrub.running, stSTATE), (s.mgmt.scrub.foreign k w, stDENIED)] <|
      s.abortScrub.answer k tag stOK 0

def execScrubAbort (k : Mb) (tag : BitVec 2) (s : State) : Host.Outcome State Fault Refusal := .next (s.scrubAbort k tag)

/-- R378: lines of the range visited, of 64 bytes. -/
def State.visitedLines (s : State) : Nat :=
  (allCh.map fun n => (s.chan.get n).visited.length * (if s.map.isJoined n then 2 else 1)).sum

def State.scrubStatus (s : State) (k : Mb) (tag : BitVec 2) : State :=
  s.exaux k tag 0x2A (fun _ => true) fun w =>
    let b := s.mgmt.scrub
    s.checked k tag [(cmdArg w != 0, stBADARG)] <|
      s.answer k tag stOK (if b.running then BitVec.ofNat 8 (128 + 100 * s.visitedLines / (b.len / 64)) else 0)

def execScrubStatus (k : Mb) (tag : BitVec 2) (s : State) : Host.Outcome State Fault Refusal := .next (s.scrubStatus k tag)

/-! ## Remap (R232, R233, R379, R380) -/

/-- R379. A channel in channel reset answers STATE (log entry 79, DESIGN CHOICE). -/
def State.remapInstall (s : State) (k : Mb) (tag : BitVec 2) : State :=
  s.exaux k tag 0x30 (fun _ => true) fun w =>
    let a := s.winField k w 0 8
    let d := s.map.decode (BitVec.ofNat 40 a)
    let n := s.map.server d.chan
    let c := s.chan.get n
    let free := (List.finRange 16).find? fun i => (c.remap.get i).st == .free
    let bad := argBits w 0 6 != 0 || a % 64 != 0 || decide (s.map.capacity ≤ a)
    let ok := d.status == 0
    let seen := if ok then c.remapOf d.loc else none
    s.checked k tag [(bad, stBADARG), (s.cmdBusy k tag || (ok && s.seqHeld n), stBUSY), (!ok || c.inReset, stSTATE),
        (seen.isNone && free.isNone, stNORESOURCE)] <|
      match seen, free with
      | some i, _ => s.answer k tag stOK (remapResult i true false (c.remap.get i).st)
      | none, some i => (s.setRunning k tag).remapStart n i d.loc false (some (k, tag))
      | none, none => s

def execRemapInstall (k : Mb) (tag : BitVec 2) (s : State) : Host.Outcome State Fault Refusal := .next (s.remapInstall k tag)

/-- R380. -/
def State.remapRelease (s : State) (k : Mb) (tag : BitVec 2) : State :=
  s.exaux k tag 0x31 (fun _ => true) fun w =>
    let n : Ch := Fin.ofNat 64 (argBits w 4 6)
    let i : Fin 16 := Fin.ofNat 16 (argBits w 0 4)
    let c := s.chan.get n
    let st := (c.remap.get i).st
    let no := st == .free || st == .filling || s.map.isFollower n
    s.checked k tag [(argBits w 10 2 != 0, stBADARG), (s.cmdBusy k tag || s.seqHeld n, stBUSY), (no, stSTATE), (s.isGone n, stFAULT)] <|
      (s.setRunning k tag).remapStart n i (c.remap.get i).loc true (some (k, tag))

def execRemapRelease (k : Mb) (tag : BitVec 2) (s : State) : Host.Outcome State Fault Refusal := .next (s.remapRelease k tag)

/-! ## Post-package repair (R235 to R237, R381) -/

/-- R236, R381. A channel in channel reset answers STATE as one in a transition does (log entry 79, DESIGN CHOICE). -/
def State.pprSoft (s : State) (k : Mb) (tag : BitVec 2) : State :=
  s.exaux k tag 0x38 (fun _ => true) fun w =>
    let v := w32 (s.winField k w 0 4)
    let (n, l) := locOf v
    s.checked k tag [(argBits w 0 6 != 0 || s.locBad v, stBADARG), (!s.resLeft n l false, stNORESOURCE),
        (s.cmdBusy k tag || s.seqHeld n, stBUSY), (s.notServing n, stSTATE)] <|
      (s.setRunning k tag).repairStart n l false (some (k, tag))

def execPprSoft (k : Mb) (tag : BitVec 2) (s : State) : Host.Outcome State Fault Refusal := .next (s.pprSoft k tag)

/-- R237, R381: hold_idle counts as it was when firmware took the command. -/
def State.pprHard (s : State) (k : Mb) (tag : BitVec 2) : State :=
  s.exaux k tag 0x39 (fun _ => true) fun w =>
    let v := w32 (s.winField k w 0 4)
    let (n, l) := locOf v
    let idle := (s.mb k).cmds.any fun c => c.tag == tag && c.idle
    s.checked k tag [(argBits w 0 6 != 0 || s.locBad v, stBADARG), (s.cmdBusy k tag || s.seqHeld n, stBUSY), (!idle, stSTATE),
        (!s.resLeft n l true, stNORESOURCE), (s.isGone n, stFAULT)] <|
      (s.setRunning k tag).repairStart n l true (some (k, tag))

def execPprHard (k : Mb) (tag : BitVec 2) (s : State) : Host.Outcome State Fault Refusal := .next (s.pprHard k tag)

/-! ## Lanes, pairs and channels (R382 to R384) -/

/-- R301: firmware selects the spare of a data lane and asks for an urgent pause. -/
def State.spareData (s : State) (n : Ch) (p : Pc) (lane : Fin 36) (i : Fin 2) : State :=
  (s.updChan n fun c => c.updPc p fun g => { g with sel := some (i, lane) }).askUrgent n (some p)

/-- R382. A selection of the same group or command spares that has not been carried out goes first. -/
def State.laneSpare (s : State) (k : Mb) (tag : BitVec 2) : State :=
  s.exaux k tag 0x40 (fun _ => true) fun w =>
    let v := s.winField k w 0 4
    let n : Ch := Fin.ofNat 64 v
    let p : Pc := Fin.ofNat 2 (v / 64)
    let lane := v / 256 % 64
    let c := s.chan.get n
    let g := c.pc.get p
    let data := decide (lane < 36)
    let bad := argBits w 0 6 != 0 || v / 128 % 2 != 0 || v / 2 ^ 14 != 0 || decide (37 < lane)
    let none_ := if data then g.freeSpare.isNone else c.freeCsp.isNone
    let waits := if data then g.sel.isSome else s.fw.laneJobs.any fun j => j.n == n && j.pc.isNone
    s.checked k tag [(bad, stBADARG), (none_, stNORESOURCE), (s.unmapped n, stSTATE), (s.isGone n, stFAULT)] <|
      if waits then s else
      let j : LaneJob := { n := n, lane := lane, pc := if data then some p else none, mb := some k, tag := tag, answered := false }
      let s := (s.updFw fun f => { f with laneJobs := f.laneJobs ++ [j] }).setRunning k tag
      if data then s.spareData n p (Fin.ofNat 36 lane) (g.freeSpare.getD 0) else s.startCmdFlow n

def execLaneSpare (k : Mb) (tag : BitVec 2) (s : State) : Host.Outcome State Fault Refusal := .next (s.laneSpare k tag)

/-- R244: distinct locations that the remap entries of two channels name. -/
def remapLocs (a b : Chan) : Nat :=
  ((a.remap.toList ++ b.remap.toList).filter (·.st != .free)).foldl (fun (l : List Loc) r =>
    if l.contains r.loc then l else r.loc :: l) [] |>.length

/-- R244, R365: a pass or a repair runs, or the pair is held. -/
def State.pairBusy (s : State) (c : PairIx) : Bool :=
  s.mgmt.scrub.running || s.seqHeld (leader c) || s.seqHeld (follower c) || s.fw.twinJobs.any fun j => j.c == c

/-- R383: the transition is asked for; it begins once every earlier request has completed. -/
def State.twinwing (s : State) (k : Mb) (tag : BitVec 2) (entry : Bool) : State :=
  s.exaux k tag 0x48 (fun w => (argBits w 5 1 == 1) == entry) fun w =>
    let c : PairIx := Fin.ofNat 32 (argBits w 0 5)
    let a := leader c
    let b := follower c
    let out := fun (n : Ch) => s.unmapped n || s.map.hole.getLsbD n.val
    let no := if entry then out a || out b || s.map.isJoined a || decide (16 < remapLocs (s.chan.get a) (s.chan.get b))
      else !s.map.isJoined a
    s.checked k tag [(argBits w 6 6 != 0, stBADARG), (s.cmdBusy k tag || s.pairBusy c, stBUSY), (no, stSTATE)] <|
      (s.updFw fun f => { f with twinJobs := f.twinJobs ++ [{ c := c, entry := entry, by_ := some (k, tag) }] }).setRunning k tag

def execTwinwingEnter (k : Mb) (tag : BitVec 2) (s : State) : Host.Outcome State Fault Refusal := .next (s.twinwing k tag true)
def execTwinwingExit (k : Mb) (tag : BitVec 2) (s : State) : Host.Outcome State Fault Refusal := .next (s.twinwing k tag false)

/-- R384: the words of a CHDIS record. -/
def chdis (n : Ch) : Word := recWord0 recCHDIS n ⟨0, 0, 0, 0, 0, 0⟩

/-- R384: the checks of the three actions; persistent disable and withdraw hold the fuse controller (R365). -/
def State.disableChecks (s : State) (k : Mb) (tag : BitVec 2) (w : Word) : List (Bool × BitVec 4) :=
  let a := argBits w 8 2
  [(argBits w 10 2 != 0 || argBits w 6 2 != 0 || a == 3, stBADARG), (a != 1 && (s.cmdBusy k tag || s.mgmt.fuse.cmd.isSome), stBUSY)]

def argChan (w : Word) : Ch := Fin.ofNat 64 (argBits w 0 6)

/-- R111: a mapped channel becomes a hole. -/
def State.holeNow (s : State) (n : Ch) : State := if s.unmapped n then s else s.makeHole n

/-- R40, R384: the channel is a hole from now on, and disabled until a cold reset at least; a quad left without a usable
channel goes off. -/
def State.disable (s : State) (n : Ch) : State :=
  ((s.holeNow n).updMap fun m => { m with volDis := m.volDis ||| BitVec.twoPow 64 n.val }).dropDoms

/-- Action 0b00, and the refusal of action 0b11. -/
def State.channelDisablePersistent (s : State) (k : Mb) (tag : BitVec 2) : State :=
  s.exaux k tag 0x50 (fun w => argBits w 8 2 == 0 || argBits w 8 2 == 3) fun w =>
    s.checked k tag (s.disableChecks k tag w) <|
      let (lost, s) := (s.disable (argChan w)).addRecord (chdis (argChan w)) 0
      s.answer k tag stOK (if lost then 1 else 0)

def execChannelDisablePersistent (k : Mb) (tag : BitVec 2) (s : State) : Host.Outcome State Fault Refusal :=
  .next (s.channelDisablePersistent k tag)

def State.channelDisableVolatile (s : State) (k : Mb) (tag : BitVec 2) : State :=
  s.exaux k tag 0x50 (fun w => argBits w 8 2 == 1) fun w =>
    s.checked k tag (s.disableChecks k tag w) <|
      (s.disable (argChan w)).answer k tag stOK 0

def execChannelDisableVolatile (k : Mb) (tag : BitVec 2) (s : State) : Host.Outcome State Fault Refusal :=
  .next (s.channelDisableVolatile k tag)

/-- The CHDIS records of a channel that are not void: those in the fuses, then those not yet programmed. -/
def Fuses.disRecords (f : Fuses) (n : Ch) : List (Word × Word) :=
  let is := fun (w0 : Word) => recType w0 == recCHDIS && !recVoid w0 && recChan w0 == n
  let word := fun (a : Nat) => (f.raw a).extractLsb' 0 32
  let old := (List.range 128).map fun i => (word (784 + 2 * i), word (785 + 2 * i))
  let new := f.jobs.filterMap fun j => match j with
    | .add w0 w1 => some (w0, w1)
    | .void _ _ => none
  (old ++ new).filter fun x => is x.1

def State.channelDisableWithdraw (s : State) (k : Mb) (tag : BitVec 2) : State :=
  s.exaux k tag 0x50 (fun w => argBits w 8 2 == 2) fun w =>
    s.checked k tag (s.disableChecks k tag w) <|
      let n := argChan w
      let s := (s.mgmt.fuse.disRecords n).foldl (fun (s : State) x => s.voidRecord x.1 x.2) s
      (s.updMap fun m => { m with volDis := m.volDis &&& ~~~(BitVec.twoPow 64 n.val) }).answer k tag stOK 0

def execChannelDisableWithdraw (k : Mb) (tag : BitVec 2) (s : State) : Host.Outcome State Fault Refusal :=
  .next (s.channelDisableWithdraw k tag)

/-! ## Fuses (R385 to R388) -/

/-- The words from an offset, as many as named, lie in the region. -/
def fuseSpan (r off count : Nat) : Bool := decide (r < 8) && decide (off + count ≤ fuseWords r)

/-- R385. Region 5 is denied before the controller's state is looked at (log entry 42, DEDUCED). -/
def State.fuseRead (s : State) (k : Mb) (tag : BitVec 2) : State :=
  s.exaux k tag 0x58 (fun _ => true) fun w =>
    let r := s.winField k w 0 1
    let mode := s.winField k w 1 1
    let n := s.winField k w 2 2
    let off := s.winField k w 4 2
    let bad := argBits w 0 6 != 0 || decide (1 < mode) || n == 0 || decide (64 < n) || !fuseSpan r off n
    s.checked k tag [(tooLong w (16 + 8 * n), stLENGTH), (bad, stBADARG), (r == 5, stDENIED),
        (s.cmdBusy k tag || s.mgmt.fuse.cmd.isSome, stBUSY)] <|
      (s.setRunning k tag).fuseStart
        { by_ := some (k, tag), op := 0x58, region := r, off := off, count := n, done := 0, base := winBase w,
          margin := mode == 1, vals := [], stage := 0, progs := [] }

def execFuseRead (k : Mb) (tag : BitVec 2) (s : State) : Host.Outcome State Fault Refusal := .next (s.fuseRead k tag)

/-- R386: the checks of FUSE_SHADOW. -/
def State.shadowChecks (s : State) (k : Mb) (w : Word) : List (Bool × BitVec 4) :=
  let r := s.winField k w 0 1
  let f := s.mgmt.fuse
  let open_ := f.factory && !f.locked.getLsbD r
  [(argBits w 0 6 != 0 || decide (1 < s.winField k w 1 1) || !fuseSpan r (s.winField k w 4 2) 1, stBADARG),
   (decide (5 < r) || (decide (3 < r) && !open_), stDENIED)]

/-- R446: words 0 to 7 of region 0 are taken up within 100 us of the answer: here with it. -/
def Fuses.takeAon (f : Fuses) (r off : Nat) : Fuses := f.takeTrims fun i => r == 0 && i == off && decide (i < 8)

/-- The shadows but that of one word. -/
def Fuses.unshadow (f : Fuses) (r off : Nat) : List (Nat × Nat × Word) :=
  f.shadows.filter fun x => !(x.1 == r && x.2.1 == off)

/-- Action 0, and the refusal of a value that names no action. -/
def State.fuseShadowSet (s : State) (k : Mb) (tag : BitVec 2) : State :=
  s.exaux k tag 0x59 (fun w => s.winField k w 1 1 != 1) fun w =>
    let r := s.winField k w 0 1
    let off := s.winField k w 4 2
    let rest := s.mgmt.fuse.unshadow r off
    s.checked k tag (s.shadowChecks k w ++ [(decide (32 ≤ rest.length), stNORESOURCE)]) <|
      (s.updFuse fun f => ({ f with shadows := rest ++ [(r, off, w32 (s.winField k w 8 4))] } : Fuses).takeAon r off).answer k tag stOK 0

def execFuseShadowSet (k : Mb) (tag : BitVec 2) (s : State) : Host.Outcome State Fault Refusal := .next (s.fuseShadowSet k tag)

def State.fuseShadowClear (s : State) (k : Mb) (tag : BitVec 2) : State :=
  s.exaux k tag 0x59 (fun w => s.winField k w 1 1 == 1) fun w =>
    s.checked k tag (s.shadowChecks k w) <|
      let r := s.winField k w 0 1
      let off := s.winField k w 4 2
      (s.updFuse fun f => ({ f with shadows := f.unshadow r off } : Fuses).takeAon r off).answer k tag stOK 0

def execFuseShadowClear (k : Mb) (tag : BitVec 2) (s : State) : Host.Outcome State Fault Refusal :=
  .next (s.fuseShadowClear k tag)

def State.fuseProgram (s : State) (k : Mb) (tag : BitVec 2) : State :=
  s.exaux k tag 0x5A (fun _ => true) fun w =>
    let r := s.winField k w 0 1
    let n := s.winField k w 2 2
    let off := s.winField k w 4 2
    let f := s.mgmt.fuse
    let bad := argBits w 0 6 != 0 || n == 0 || decide (16 < n) || !fuseSpan r off n
    s.checked k tag [(tooLong w (8 + 4 * n), stLENGTH), (bad, stBADARG), (s.cmdBusy k tag || f.cmd.isSome, stBUSY),
        (decide (r < 7) && f.locked.getLsbD r, stSTATE),
        (decide (5 < r) || (r == 5 && !f.factory), stDENIED)] <|
      (s.setRunning k tag).fuseStart
        { by_ := some (k, tag), op := 0x5A, region := r, off := off, count := n, done := 0, base := winBase w, margin := false,
          vals := (List.range n).map fun i => w32 (s.winField k w (8 + 4 * i) 4), stage := 0, progs := [] }

def execFuseProgram (k : Mb) (tag : BitVec 2) (s : State) : Host.Outcome State Fault Refusal := .next (s.fuseProgram k tag)

def State.fuseLock (s : State) (k : Mb) (tag : BitVec 2) : State :=
  s.exaux k tag 0x5B (fun _ => true) fun w =>
    let r := argBits w 0 3
    let force := argBits w 3 1 == 1
    let f := s.mgmt.fuse
    s.checked k tag [(argBits w 4 8 != 0 || r == 7, stBADARG), (s.cmdBusy k tag || f.cmd.isSome, stBUSY),
        (r != 6 && !force && !f.crcOk r, stVERIFY), (f.locked.getLsbD r, stSTATE)] <|
      (s.setRunning k tag).lockStart (some (k, tag)) 0x5B r force

def execFuseLock (k : Mb) (tag : BitVec 2) (s : State) : Host.Outcome State Fault Refusal := .next (s.fuseLock k tag)

/-! ## Attestation and firmware (R389 to R391) -/

/-- Bytes of a window as a list. -/
def State.winBytes (s : State) (k : Mb) (a n : Nat) : List Byte := (List.range n).map fun i => s.winByte k (a + i)

/-- R445: the device-unique secret, none where a word of region 5 cannot be used. -/
def Fuses.secret (f : Fuses) : Option (BitVec 256) :=
  if (List.range 9).any fun i => (f.value 5 i).isNone then none
  else some (BitVec.ofNat 256 (leNat ((List.range 8).flatMap fun i => bytesOf 4 ((f.value 5 i).getD 0).toNat)))

/-- R389: the report up to its signature. -/
def State.putReport (s : State) (k : Mb) (w : Word) (secret : BitVec 256) (merrov : BitVec 384) : State :=
  let nonce := s.winField k w 0 48
  let f := s.fw.running
  let s := s.putField k w 0x000 4 1
  let s := s.putField k w 0x004 4 f.secVer.toNat
  let s := s.putField k w 0x008 48 f.digest.toNat
  let s := s.putField k w 0x038 48 nonce
  let s := s.putField k w 0x068 4 s.mgmt.fuse.locked.toNat
  let s := s.putField k w 0x06C 4 f.slot.toNat
  let s := s.putField k w 0x070 8 s.map.mapped.toNat
  let s := s.putField k w 0x078 4 s.map.joinedWord.toNat
  let s := s.putField k w 0x07C 4 0
  s.putField k w 0x080 96 (Config.attestPublic secret merrov).toNat

/-- R389, R445: region 5 (or the Merrov digest) unusable is a FAULT. -/
def State.attest (s : State) (k : Mb) (tag : BitVec 2) : State :=
  s.exaux k tag 0x60 (fun _ => true) fun w =>
    s.checked k tag [(tooLong w 0x140, stLENGTH), (argBits w 0 6 != 0, stBADARG), (s.cmdBusy k tag, stBUSY)] <|
      match s.mgmt.fuse.secret, s.mgmt.fuse.digest 0 with
      | some x, some d =>
        let s := s.putReport k w x d
        let sig := Config.attestSign x d (s.winBytes k (winBase w) 0xE0)
        (s.putField k w 0x0E0 96 sig.toNat).answer k tag stOK 0
      | _, _ => s.answer k tag stFAULT 0

def execAttest (k : Mb) (tag : BitVec 2) (s : State) : Host.Outcome State Fault Refusal := .next (s.attest k tag)

def State.fwStage (s : State) (k : Mb) (tag : BitVec 2) : State :=
  s.exaux k tag 0x68 (fun _ => true) fun w =>
    let b := s.winBytes k (winBase w) 440
    let h := imgHdr b
    let bad := !s.mgmt.fuse.signed h || decide (h.secVer.toNat < s.fw.running.secVer.toNat)
    s.checked k tag [(tooLong w 440, stLENGTH), (argBits w 0 6 != 0 || hdrBad b, stBADARG),
        (s.cmdBusy k tag, stBUSY), (bad, stVERIFY)] <|
      (s.updFw fun f => { f with staged := some h }).answer k tag stOK 0

def execFwStage (k : Mb) (tag : BitVec 2) (s : State) : Host.Outcome State Fault Refusal := .next (s.fwStage k tag)

/-- The command is answered OK, and a reset follows its posting: of the block, or of Priri. -/
def State.askReset (s : State) (k : Mb) (tag : BitVec 2) (warm : Bool) : State :=
  (s.updFw fun f => { f with resetAsks := f.resetAsks ++ [(k, tag, warm)] }).answer k tag stOK 0

def State.fwCommit (s : State) (k : Mb) (tag : BitVec 2) : State :=
  s.exaux k tag 0x69 (fun _ => true) fun w =>
    s.checked k tag [(cmdArg w != 0, stBADARG), (s.fw.staged.isNone, stSTATE)] <| s.askReset k tag false

def execFwCommit (k : Mb) (tag : BitVec 2) (s : State) : Host.Outcome State Fault Refusal := .next (s.fwCommit k tag)

/-! ## Log and self-test results (R392) -/

/-- R392: the checks that the action word has. -/
def State.logBad (s : State) (k : Mb) (w : Word) : Bool :=
  argBits w 0 6 != 0 || decide (3 ≤ s.winField k w 0 4)

/-- Action 0b00, and the refusal of action 0b11. -/
def State.logConfigGet (s : State) (k : Mb) (tag : BitVec 2) : State :=
  s.exaux k tag 0x70 (fun w => s.winField k w 0 4 % 4 == 0 || s.winField k w 0 4 % 4 == 3) fun w =>
    s.checked k tag [(s.logBad k w, stBADARG)] <|
      let l := s.mgmt.log
      ((s.putField k w 4 4 l.verbosity.toNat).putField k w 8 48 l.mask.toNat).answer k tag stOK 0

def execLogConfigGet (k : Mb) (tag : BitVec 2) (s : State) : Host.Outcome State Fault Refusal := .next (s.logConfigGet k tag)

def State.logConfigSet (s : State) (k : Mb) (tag : BitVec 2) : State :=
  s.exaux k tag 0x70 (fun w => s.winField k w 0 4 % 4 == 1) fun w =>
    let v := s.winField k w 4 4
    let m := s.winField k w 8 48
    s.checked k tag [(s.logBad k w || decide (3 < v) || decide (2 ^ 360 ≤ m), stBADARG)] <|
      (s.updLog fun l => { l with verbosity := BitVec.ofNat 2 v, mask := BitVec.ofNat 360 m }).answer k tag stOK 0

def execLogConfigSet (k : Mb) (tag : BitVec 2) (s : State) : Host.Outcome State Fault Refusal := .next (s.logConfigSet k tag)

def State.logConfigFlush (s : State) (k : Mb) (tag : BitVec 2) : State :=
  s.exaux k tag 0x70 (fun w => s.winField k w 0 4 % 4 == 2) fun w =>
    s.checked k tag [(s.logBad k w, stBADARG)] <| s.logFlush.answer k tag stOK 0

def execLogConfigFlush (k : Mb) (tag : BitVec 2) (s : State) : Host.Outcome State Fault Refusal :=
  .next (s.logConfigFlush k tag)

def State.bistResults (s : State) (k : Mb) (tag : BitVec 2) : State :=
  s.exaux k tag 0x74 (fun _ => true) fun w =>
    s.checked k tag [(argBits w 0 6 != 0, stBADARG)] <|
      let b := s.boot
      let s := s.putField k w 0x00 8 b.bistCh.toNat
      let s := s.putField k w 0x08 4 b.bistMod.toNat
      let s := s.putField k w 0x0C 4 b.bistMgmt.toNat
      let s := s.putField k w 0x10 8 s.map.trainFail.toNat
      let s := s.putField k w 0x18 4 b.groupsRun.toNat
      let s := s.putField k w 0x1C 4 0
      s.answer k tag stOK (BitVec.ofNat 8 (min 255 s.failedBlocks))

def execBistResults (k : Mb) (tag : BitVec 2) (s : State) : Host.Outcome State Fault Refusal := .next (s.bistResults k tag)

/-! ## Reset (R393, R435, R474) -/

/-- Kind 0x1, and the refusal of the kinds that do not exist. -/
def State.resetWarm (s : State) (k : Mb) (tag : BitVec 2) : State :=
  s.exaux k tag 0x78 (fun w => argBits w 8 4 != 2 && argBits w 8 4 != 3) fun w =>
    s.checked k tag [(argBits w 8 4 != 1 || argBits w 0 8 != 0, stBADARG)] <| s.askReset k tag true

def execResetWarm (k : Mb) (tag : BitVec 2) (s : State) : Host.Outcome State Fault Refusal := .next (s.resetWarm k tag)

/-- R393, R435: refused before READY, in a transition, and for a channel without an engine in service. -/
def State.resetChannel (s : State) (k : Mb) (tag : BitVec 2) : State :=
  s.exaux k tag 0x78 (fun w => argBits w 8 4 == 2) fun w =>
    let n := argChan w
    let early := s.boot.ph != .up || s.fw.st != .ready
    let no := early || s.map.inTrans n || s.unmapped n || s.map.lost.getLsbD (s.map.server n).val
    s.checked k tag [(argBits w 6 2 != 0, stBADARG), (no, stSTATE)] <|
      (s.setRunning k tag).chanResetStart n (some (k, tag))

def execResetChannel (k : Mb) (tag : BitVec 2) (s : State) : Host.Outcome State Fault Refusal := .next (s.resetChannel k tag)

def State.resetPriri (s : State) (k : Mb) (tag : BitVec 2) : State :=
  s.exaux k tag 0x78 (fun w => argBits w 8 4 == 3) fun w =>
    s.checked k tag [(argBits w 0 8 != 0, stBADARG)] <| s.askReset k tag false

def execResetPriri (k : Mb) (tag : BitVec 2) (s : State) : Host.Outcome State Fault Refusal := .next (s.resetPriri k tag)

end Sys2Proof.Machine
end

