-- ==== Sys2Proof/Machine/Wrapper.lean ====
section
/-! DEFINITION. The instructions of the test wrapper (chapter 15, R447, R456, R457). -/

namespace Sys2Proof.Machine

/-- R456: the instruction that a 6-bit code stands for: itself where the table lists it, the factory-only ones in factory mode;
every other code acts as WS_BYPASS. -/
def wirActs (factory : Bool) (code : BitVec 6) : BitVec 6 :=
  let k := code.toNat
  if k = 0x10 ∨ k = 0x11 ∨ (0x18 ≤ k ∧ k ≤ 0x1B) then code
  else if (k = 0x01 ∨ k = 0x02 ∨ k = 0x20 ∨ k = 0x2F) ∧ factory = true then code
  else 0

/-- R456: the wrapper takes an instruction. -/
def State.setWir (s : State) (code : BitVec 6) : State :=
  s.updBoot fun b => { b with wir := wirActs s.mgmt.fuse.factory code }

/-- R456: a factory-only instruction has its effect where its code stands for itself. -/
def State.factoryWir (s : State) (code : BitVec 6) (f : State → State) : State :=
  let t := s.setWir code
  if t.boot.wir = code then f t else t

def execWsBypass (s : State) : Host.Outcome State Fault Refusal := .next (s.setWir 0)

def execWsExtest (s : State) : Host.Outcome State Fault Refusal := .next (s.factoryWir 0x01 id)

def execWsIntest (s : State) : Host.Outcome State Fault Refusal := .next (s.factoryWir 0x02 id)

/-- R457: accepted only while gh_rst_n_i is low; in field mode with every block selected. -/
def State.bistLaunch (s : State) (mask : BitVec 88) : State :=
  let s := s.setWir 0x10
  if s.boot.rstN || s.boot.ph == .off then s
  else if s.mgmt.fuse.factory || mask.setWidth 85 == BitVec.allOnes 85 then
    s.updBoot fun b => { b with armed := some mask, launchRefused := false }
  else s.updBoot fun b => { b with launchRefused := true }

def execGhBistLaunch (mask : BitVec 88) (s : State) : Host.Outcome State Fault Refusal := .next (s.bistLaunch mask)

/-- R456: the capture of GH_BIST_RESULT. -/
def Boot.bistWord (b : Boot) : BitVec 96 :=
  (0 : BitVec 4) ++ b.groupsRun ++ (0 : BitVec 1) ++ bit1 b.launchRefused ++ bit1 b.bistValid ++ bit1 (b.bistMgmt == 3)
    ++ b.bistMod ++ b.bistCh

def execGhBistResult (s : State) : Host.Outcome State Fault Refusal :=
  .next ((s.setWir 0x11).updBoot fun b => { b with dr := b.bistWord })

/-- R456: an update of debug path j starts an access, unless one is in progress. -/
def State.dbgReg (s : State) (j : Fin 4) (u : BitVec 64) : State :=
  let s := s.setWir (BitVec.ofNat 6 (0x18 + j.val))
  if s.boot.dbgBusy.get j || !s.mgmtOn then s
  else
    s.access { who := dbgIdent j, org := .debug j, off := u.extractLsb' 32 24,
               wr := if u.getLsbD 63 then some (u.extractLsb' 0 32) else none }

def execGhDbgReg (j : Fin 4) (u : BitVec 64) (s : State) : Host.Outcome State Fault Refusal := .next (s.dbgReg j u)

/-- R456: the codec self-test: done, and passed. -/
def execGhCodecTest (s : State) : Host.Outcome State Fault Refusal :=
  .next (s.factoryWir 0x20 fun s => s.updBoot fun b => { b with codec := 3 })

/-- R445, R447: the locks that GH_FACTORY_CLOSE asks for, and the words of the Merrov digest: usable, MARGINAL or not, and not
blank. -/
def Fuses.mayClose (f : Fuses) : Bool :=
  [0, 1, 2, 3, 5].all (fun r => f.locked.getLsbD r) &&
    (List.range 12).all fun i =>
      let a := fuseBase 4 + i
      !f.unusable.contains a && (fuseDecode (f.raw a)).isSome && f.raw a != 0

/-- R447, R456: lock word 7 is blown. -/
def State.factoryClose (s : State) (v : Word) : State :=
  s.factoryWir 0x2F fun s =>
    if v ≠ 0x00C105ED ∨ !s.mgmtOn ∨ !s.mgmt.fuse.mayClose ∨ s.mgmt.fuse.cmd.isSome then s else s.lockStart none 0 7 true

def execGhFactoryClose (v : Word) (s : State) : Host.Outcome State Fault Refusal := .next (s.factoryClose v)

end Sys2Proof.Machine
end

