-- ==== Sys2Proof/Machine/Dispatch.lean ====
section
/-! DEFINITION. What each command does to everything but the queue: one arm per row of the table. -/

namespace Sys2Proof.Machine

def exec (i : Instr) (s : State) : Host.Outcome State Fault Refusal :=
  match i with
  | .flitReceive m flit => Sys2Proof.Machine.execFlitReceive m flit s
  | .flitTransmit m => Sys2Proof.Machine.execFlitTransmit m s
  | .replayTimeout m => Sys2Proof.Machine.execReplayTimeout m s
  | .nakHoldoffExpiry m => Sys2Proof.Machine.execNakHoldoffExpiry m s
  | .retryWindowClose m => Sys2Proof.Machine.execRetryWindowClose m s
  | .nop m h => Sys2Proof.Machine.execNop m h s
  | .rd64 m h => Sys2Proof.Machine.execRd64 m h s
  | .rd128 m h => Sys2Proof.Machine.execRd128 m h s
  | .ldr m h => Sys2Proof.Machine.execLdr m h s
  | .hint m h => Sys2Proof.Machine.execHint m h s
  | .wr64 m h data => Sys2Proof.Machine.execWr64 m h data s
  | .wrp m h mask data => Sys2Proof.Machine.execWrp m h mask data s
  | .stc m h value => Sys2Proof.Machine.execStc m h value s
  | .amoAdd m h a => Sys2Proof.Machine.execAmoAdd m h a s
  | .amoSwap m h a => Sys2Proof.Machine.execAmoSwap m h a s
  | .amoAnd m h a => Sys2Proof.Machine.execAmoAnd m h a s
  | .amoOr m h a => Sys2Proof.Machine.execAmoOr m h a s
  | .amoXor m h a => Sys2Proof.Machine.execAmoXor m h a s
  | .amoSmin m h a => Sys2Proof.Machine.execAmoSmin m h a s
  | .amoSmax m h a => Sys2Proof.Machine.execAmoSmax m h a s
  | .amoUmin m h a => Sys2Proof.Machine.execAmoUmin m h a s
  | .amoUmax m h a => Sys2Proof.Machine.execAmoUmax m h a s
  | .amoCas m h cmp swp => Sys2Proof.Machine.execAmoCas m h cmp swp s
  | .fenceW m h => Sys2Proof.Machine.execFenceW m h s
  | .fenceAll m h => Sys2Proof.Machine.execFenceAll m h s
  | .fenceComplete m port => Sys2Proof.Machine.execFenceComplete m port s
  | .cfgRd m h => Sys2Proof.Machine.execCfgRd m h s
  | .cfgWr m h v => Sys2Proof.Machine.execCfgWr m h v s
  | .srEnter m h => Sys2Proof.Machine.execSrEnter m h s
  | .srEnterAcceptanceArrival m => Sys2Proof.Machine.execSrEnterAcceptanceArrival m s
  | .portDrainComplete m port => Sys2Proof.Machine.execPortDrainComplete m port s
  | .hostLinkResetRequest m => Sys2Proof.Machine.execHostLinkResetRequest m s
  | .moduleDrainComplete m => Sys2Proof.Machine.execModuleDrainComplete m s
  | .retrain who m v => Sys2Proof.Machine.execRetrain who m v s
  | .linkTrainingDone m rate16 repaired => Sys2Proof.Machine.execLinkTrainingDone m rate16 repaired s
  | .trainingRetry m => Sys2Proof.Machine.execTrainingRetry m s
  | .crossbarRequestGrant g => Sys2Proof.Machine.execCrossbarRequestGrant g s
  | .crossbarResponseGrant g => Sys2Proof.Machine.execCrossbarResponseGrant g s
  | .schedulerCc n cc => Sys2Proof.Machine.execSchedulerCc n cc s
  | .entryIndexNotice m n ix => Sys2Proof.Machine.execEntryIndexNotice m n ix s
  | .entryAged n ix => Sys2Proof.Machine.execEntryAged n ix s
  | .writeAgeExpiry n pc => Sys2Proof.Machine.execWriteAgeExpiry n pc s
  | .readDataDecode n ix errs => Sys2Proof.Machine.execReadDataDecode n ix errs s
  | .writeBurstDone n ix => Sys2Proof.Machine.execWriteBurstDone n ix s
  | .atomicUnitOp g => Sys2Proof.Machine.execAtomicUnitOp g s
  | .lineBufferIdleExpiry n slot => Sys2Proof.Machine.execLineBufferIdleExpiry n slot s
  | .pageTimeout n b => Sys2Proof.Machine.execPageTimeout n b s
  | .hintTimeout n ix => Sys2Proof.Machine.execHintTimeout n ix s
  | .reservationProtectionExpiry n k => Sys2Proof.Machine.execReservationProtectionExpiry n k s
  | .refillBoundary => Sys2Proof.Machine.execRefillBoundary s
  | .capArrival n => Sys2Proof.Machine.execCapArrival n s
  | .gateCycleStart n => Sys2Proof.Machine.execGateCycleStart n s
  | .gateEntryEnd n => Sys2Proof.Machine.execGateEntryEnd n s
  | .gateCommit who n v => Sys2Proof.Machine.execGateCommit who n v s
  | .applyRates who k v => Sys2Proof.Machine.execApplyRates who k v s
  | .portClassChange who k v => Sys2Proof.Machine.execPortClassChange who k v s
  | .hwmClr who k v => Sys2Proof.Machine.execHwmClr who k v s
  | .classHwmClear who n v => Sys2Proof.Machine.execClassHwmClear who n v s
  | .policeWindowClose m => Sys2Proof.Machine.execPoliceWindowClose m s
  | .ceWindowClose n => Sys2Proof.Machine.execCeWindowClose n s
  | .laneMonitorWindow n => Sys2Proof.Machine.execLaneMonitorWindow n s
  | .refreshTick n b => Sys2Proof.Machine.execRefreshTick n b s
  | .tmpDue n sid => Sys2Proof.Machine.execTmpDue n sid s
  | .tmpReading n sid burst => Sys2Proof.Machine.execTmpReading n sid burst s
  | .trackerEpochBoundary n b => Sys2Proof.Machine.execTrackerEpochBoundary n b s
  | .sweepDeadline n b => Sys2Proof.Machine.execSweepDeadline n b s
  | .trackerDrainDone n b => Sys2Proof.Machine.execTrackerDrainDone n b s
  | .recalPauseStart n pc => Sys2Proof.Machine.execRecalPauseStart n pc s
  | .urgentPauseStart => Sys2Proof.Machine.execUrgentPauseStart s
  | .pauseClosed n pc => Sys2Proof.Machine.execPauseClosed n pc s
  | .pauseMeasurementDone n pc ms cms => Sys2Proof.Machine.execPauseMeasurementDone n pc ms cms s
  | .pauseEnd n pc => Sys2Proof.Machine.execPauseEnd n pc s
  | .requalSweepDone n pc lane => Sys2Proof.Machine.execRequalSweepDone n pc lane s
  | .caerrAssert n => Sys2Proof.Machine.execCaerrAssert n s
  | .caerrDeassert n => Sys2Proof.Machine.execCaerrDeassert n s
  | .caerrRecoveryWaitDone n => Sys2Proof.Machine.execCaerrRecoveryWaitDone n s
  | .schedulerWatchdog n => Sys2Proof.Machine.execSchedulerWatchdog n s
  | .illegalControlState n => Sys2Proof.Machine.execIllegalControlState n s
  | .engineRecoveryDone n => Sys2Proof.Machine.execEngineRecoveryDone n s
  | .scrubPaceTick n loc => Sys2Proof.Machine.execScrubPaceTick n loc s
  | .scrubShareDone n => Sys2Proof.Machine.execScrubShareDone n s
  | .scrubPassEnd => Sys2Proof.Machine.execScrubPassEnd s
  | .remapFillDone n ix => Sys2Proof.Machine.execRemapFillDone n ix s
  | .softRepairSequenceDone n => Sys2Proof.Machine.execSoftRepairSequenceDone n s
  | .hardRepairSequenceDone n => Sys2Proof.Machine.execHardRepairSequenceDone n s
  | .twinwingTransitionBegin c => Sys2Proof.Machine.execTwinwingTransitionBegin c s
  | .twinwingTransitionDone c => Sys2Proof.Machine.execTwinwingTransitionDone c s
  | .channelResetDone n t7ok => Sys2Proof.Machine.execChannelResetDone n t7ok s
  | .baseDieSensorReading n t => Sys2Proof.Machine.execBaseDieSensorReading n t s
  | .tripColumnWindowExpiry n => Sys2Proof.Machine.execTripColumnWindowExpiry n s
  | .tripCheck tmps => Sys2Proof.Machine.execTripCheck tmps s
  | .criticalCapEnd n => Sys2Proof.Machine.execCriticalCapEnd n s
  | .thermalModelStep => Sys2Proof.Machine.execThermalModelStep s
  | .budgetRefill => Sys2Proof.Machine.execBudgetRefill s
  | .pririWait => Sys2Proof.Machine.execPririWait s
  | .quietTimeExpiry => Sys2Proof.Machine.execQuietTimeExpiry s
  | .deferMaxExpiry => Sys2Proof.Machine.execDeferMaxExpiry s
  | .srEnterDeferralEnd => Sys2Proof.Machine.execSrEnterDeferralEnd s
  | .entryStepComplete => Sys2Proof.Machine.execEntryStepComplete s
  | .parkRefused m => Sys2Proof.Machine.execParkRefused m s
  | .pupaRefreshBurstStart n pc => Sys2Proof.Machine.execPupaRefreshBurstStart n pc s
  | .pupaRefreshBurstDone n pc => Sys2Proof.Machine.execPupaRefreshBurstDone n pc s
  | .flitActivityWake m => Sys2Proof.Machine.execFlitActivityWake m s
  | .sidebandExitRequest m => Sys2Proof.Machine.execSidebandExitRequest m s
  | .wakePattern m transitions => Sys2Proof.Machine.execWakePattern m transitions s
  | .pllLock => Sys2Proof.Machine.execPllLock s
  | .powerUpStepReady d => Sys2Proof.Machine.execPowerUpStepReady d s
  | .wakeComplete m => Sys2Proof.Machine.execWakeComplete m s
  | .i3cAddressMatch => Sys2Proof.Machine.execI3cAddressMatch s
  | .eyespotVisitStart => Sys2Proof.Machine.execEyespotVisitStart s
  | .eyespotVisitEnd base tmps => Sys2Proof.Machine.execEyespotVisitEnd base tmps s
  | .refclkLoss => Sys2Proof.Machine.execRefclkLoss s
  | .pllLockLoss => Sys2Proof.Machine.execPllLockLoss s
  | .refclkLossSequenceDone => Sys2Proof.Machine.execRefclkLossSequenceDone s
  | .pwrgoodRise => Sys2Proof.Machine.execPwrgoodRise s
  | .pwrgoodFall => Sys2Proof.Machine.execPwrgoodFall s
  | .rstNAssert => Sys2Proof.Machine.execRstNAssert s
  | .rstNRelease => Sys2Proof.Machine.execRstNRelease s
  | .bootStepComplete r => Sys2Proof.Machine.execBootStepComplete r s
  | .warmBootStepComplete r => Sys2Proof.Machine.execWarmBootStepComplete r s
  | .staggerGrant => Sys2Proof.Machine.execStaggerGrant s
  | .staggerGrantLow => Sys2Proof.Machine.execStaggerGrantLow s
  | .staggerGrantTimeout => Sys2Proof.Machine.execStaggerGrantTimeout s
  | .bistGroupDone chFail modFail => Sys2Proof.Machine.execBistGroupDone chFail modFail s
  | .stagingGo who v => Sys2Proof.Machine.execStagingGo who v s
  | .imageVerifyDone => Sys2Proof.Machine.execImageVerifyDone s
  | .deliveryTimeout => Sys2Proof.Machine.execDeliveryTimeout s
  | .fuseOpAck rdata => Sys2Proof.Machine.execFuseOpAck rdata s
  | .fuseReadTimeout => Sys2Proof.Machine.execFuseReadTimeout s
  | .fuseProgramTimeout => Sys2Proof.Machine.execFuseProgramTimeout s
  | .pririWatchdog => Sys2Proof.Machine.execPririWatchdog s
  | .fwSramUncorrectable => Sys2Proof.Machine.execFwSramUncorrectable s
  | .pririRestartDone => Sys2Proof.Machine.execPririRestartDone s
  | .warmResetDelayExpiry => Sys2Proof.Machine.execWarmResetDelayExpiry s
  | .registerWrite who t v => Sys2Proof.Machine.execRegisterWrite who t v s
  | .mapCfgWrite who v => Sys2Proof.Machine.execMapCfgWrite who v s
  | .postedWriteEffect d => Sys2Proof.Machine.execPostedWriteEffect d s
  | .aliasWrite who a v => Sys2Proof.Machine.execAliasWrite who a v s
  | .semRead who ix => Sys2Proof.Machine.execSemRead who ix s
  | .semWrite who ix v => Sys2Proof.Machine.execSemWrite who ix v s
  | .eventOccurrence e => Sys2Proof.Machine.execEventOccurrence e s
  | .eventAck who e v => Sys2Proof.Machine.execEventAck who e v s
  | .eventHoldoffExpiry e => Sys2Proof.Machine.execEventHoldoffExpiry e s
  | .i3cIbiEnabled t => Sys2Proof.Machine.execI3cIbiEnabled t s
  | .i3cIbiNack t => Sys2Proof.Machine.execI3cIbiNack t s
  | .i3cRegisterWrite t bytes => Sys2Proof.Machine.execI3cRegisterWrite t bytes s
  | .i3cRegisterRead t bytes => Sys2Proof.Machine.execI3cRegisterRead t bytes s
  | .i3cStatusRead t => Sys2Proof.Machine.execI3cStatusRead t s
  | .logPacketWrite => Sys2Proof.Machine.execLogPacketWrite s
  | .fwLogPacket a => Sys2Proof.Machine.execFwLogPacket a s
  | .logPacketTimeout => Sys2Proof.Machine.execLogPacketTimeout s
  | .logSwapTimer => Sys2Proof.Machine.execLogSwapTimer s
  | .logBankSwap => Sys2Proof.Machine.execLogBankSwap s
  | .logPop who => Sys2Proof.Machine.execLogPop who s
  | .flush who v => Sys2Proof.Machine.execFlush who v s
  | .mailboxInboundWrite who k v => Sys2Proof.Machine.execMailboxInboundWrite who k v s
  | .outTake who k v => Sys2Proof.Machine.execOutTake who k v s
  | .fwTake k => Sys2Proof.Machine.execFwTake k s
  | .fwPost k => Sys2Proof.Machine.execFwPost k s
  | .windowHold k => Sys2Proof.Machine.execWindowHold k s
  | .windowWaitExpiry k => Sys2Proof.Machine.execWindowWaitExpiry k s
  | .getVersion k tag => Sys2Proof.Machine.execGetVersion k tag s
  | .setMailboxOwner k tag => Sys2Proof.Machine.execSetMailboxOwner k tag s
  | .powerStateEnter k tag => Sys2Proof.Machine.execPowerStateEnter k tag s
  | .powerStateSetIdle k tag => Sys2Proof.Machine.execPowerStateSetIdle k tag s
  | .powerStateClearIdle k tag => Sys2Proof.Machine.execPowerStateClearIdle k tag s
  | .idlePolicyExpiry => Sys2Proof.Machine.execIdlePolicyExpiry s
  | .thermalPolicyGet k tag => Sys2Proof.Machine.execThermalPolicyGet k tag s
  | .thermalPolicySetFloor k tag => Sys2Proof.Machine.execThermalPolicySetFloor k tag s
  | .thermalPolicySetThresholds k tag => Sys2Proof.Machine.execThermalPolicySetThresholds k tag s
  | .refreshFloor k tag => Sys2Proof.Machine.execRefreshFloor k tag s
  | .trackerPolicy k tag => Sys2Proof.Machine.execTrackerPolicy k tag s
  | .scrubStart k tag => Sys2Proof.Machine.execScrubStart k tag s
  | .scrubAbort k tag => Sys2Proof.Machine.execScrubAbort k tag s
  | .scrubStatus k tag => Sys2Proof.Machine.execScrubStatus k tag s
  | .remapInstall k tag => Sys2Proof.Machine.execRemapInstall k tag s
  | .remapRelease k tag => Sys2Proof.Machine.execRemapRelease k tag s
  | .pprSoft k tag => Sys2Proof.Machine.execPprSoft k tag s
  | .pprHard k tag => Sys2Proof.Machine.execPprHard k tag s
  | .laneSpare k tag => Sys2Proof.Machine.execLaneSpare k tag s
  | .twinwingEnter k tag => Sys2Proof.Machine.execTwinwingEnter k tag s
  | .twinwingExit k tag => Sys2Proof.Machine.execTwinwingExit k tag s
  | .channelDisablePersistent k tag => Sys2Proof.Machine.execChannelDisablePersistent k tag s
  | .channelDisableVolatile k tag => Sys2Proof.Machine.execChannelDisableVolatile k tag s
  | .channelDisableWithdraw k tag => Sys2Proof.Machine.execChannelDisableWithdraw k tag s
  | .fuseRead k tag => Sys2Proof.Machine.execFuseRead k tag s
  | .fuseShadowSet k tag => Sys2Proof.Machine.execFuseShadowSet k tag s
  | .fuseShadowClear k tag => Sys2Proof.Machine.execFuseShadowClear k tag s
  | .fuseProgram k tag => Sys2Proof.Machine.execFuseProgram k tag s
  | .fuseLock k tag => Sys2Proof.Machine.execFuseLock k tag s
  | .attest k tag => Sys2Proof.Machine.execAttest k tag s
  | .fwStage k tag => Sys2Proof.Machine.execFwStage k tag s
  | .fwCommit k tag => Sys2Proof.Machine.execFwCommit k tag s
  | .logConfigGet k tag => Sys2Proof.Machine.execLogConfigGet k tag s
  | .logConfigSet k tag => Sys2Proof.Machine.execLogConfigSet k tag s
  | .logConfigFlush k tag => Sys2Proof.Machine.execLogConfigFlush k tag s
  | .bistResults k tag => Sys2Proof.Machine.execBistResults k tag s
  | .resetWarm k tag => Sys2Proof.Machine.execResetWarm k tag s
  | .resetChannel k tag => Sys2Proof.Machine.execResetChannel k tag s
  | .resetPriri k tag => Sys2Proof.Machine.execResetPriri k tag s
  | .wsBypass => Sys2Proof.Machine.execWsBypass s
  | .wsExtest => Sys2Proof.Machine.execWsExtest s
  | .wsIntest => Sys2Proof.Machine.execWsIntest s
  | .ghBistLaunch mask => Sys2Proof.Machine.execGhBistLaunch mask s
  | .ghBistResult => Sys2Proof.Machine.execGhBistResult s
  | .ghDbgReg j u => Sys2Proof.Machine.execGhDbgReg j u s
  | .ghCodecTest => Sys2Proof.Machine.execGhCodecTest s
  | .ghFactoryClose v => Sys2Proof.Machine.execGhFactoryClose v s
  | .ttSnapshot who n v => Sys2Proof.Machine.execTtSnapshot who n v s
  | .trackerSnapshot who n v => Sys2Proof.Machine.execTrackerSnapshot who n v s
  | .linkTrainingFailure m => Sys2Proof.Machine.execLinkTrainingFailure m s
  | .refclkValid => Sys2Proof.Machine.execRefclkValid s
  | .pllLockTimeout => Sys2Proof.Machine.execPllLockTimeout s
  | .fuseAckLow => Sys2Proof.Machine.execFuseAckLow s

end Sys2Proof.Machine
end

