-- ==== Sys2Proof/Safety.lean ====
section
/-! DEFINITION. What a safe state is, and the terms that the statements about requests, accesses and firmware commands are
made in. -/

namespace Sys2Proof

open Sys2Proof.Machine

/-- Stored data is in canonical form. -/
def Safe (s : State) : Prop := memWf s.dram = true

/-! ## Requests (R74, R75, R77) -/

/-- The module and the message of a request command: the opcode of the table *Request opcodes*, the header, the data. A header whose
parity fails is none (R243). -/
def requestOf : Instr → Option (Mod × Msg)
  | .rd64 m h => some (m, reqMsg 0x01 h 0)
  | .rd128 m h => some (m, reqMsg 0x02 h 0)
  | .ldr m h => some (m, reqMsg 0x03 h 0)
  | .hint m h => some (m, reqMsg 0x04 h 0)
  | .wr64 m h d => some (m, reqMsg 0x08 h (d.setWidth 576))
  | .wrp m h k d => some (m, reqMsg 0x09 h (d ++ k))
  | .stc m h v => some (m, reqMsg 0x0A h (v.setWidth 576))
  | .amoAdd m h a => some (m, reqMsg 0x10 h (a.setWidth 576))
  | .amoSwap m h a => some (m, reqMsg 0x11 h (a.setWidth 576))
  | .amoAnd m h a => some (m, reqMsg 0x12 h (a.setWidth 576))
  | .amoOr m h a => some (m, reqMsg 0x13 h (a.setWidth 576))
  | .amoXor m h a => some (m, reqMsg 0x14 h (a.setWidth 576))
  | .amoSmin m h a => some (m, reqMsg 0x15 h (a.setWidth 576))
  | .amoSmax m h a => some (m, reqMsg 0x16 h (a.setWidth 576))
  | .amoUmin m h a => some (m, reqMsg 0x17 h (a.setWidth 576))
  | .amoUmax m h a => some (m, reqMsg 0x18 h (a.setWidth 576))
  | .amoCas m h c w => some (m, reqMsg 0x19 h (casData h c w))
  | .fenceW m h => if h.bad then none else some (m, reqMsg 0x20 h.hdr 0)
  | .fenceAll m h => if h.bad then none else some (m, reqMsg 0x21 h.hdr 0)
  | .cfgRd m h => if h.bad then none else some (m, reqMsg 0x28 h.hdr 0)
  | .cfgWr m h v => if h.bad then none else some (m, reqMsg 0x29 h.hdr (v.setWidth 576))
  | .srEnter m h => if h.bad then none else some (m, reqMsg 0x3E h.hdr 0)
  | _ => none

/-- The length of an AMO is one that the table *Size and flags* allows (R76, R95). -/
def Legal (x : Msg) : Prop := (reqSlots x.opc x.hdr.szf).isSome = true

/-- A request arrives on an active link with no other message before it, its credit is there, its tag is not outstanding,
and checks 4 to 6 pass; no entry to a lower power state is in progress that it would end. -/
structure Arrives (s : State) (m : Mod) (x : Msg) : Prop where
  legal : Legal x
  link : (s.hlm.get m).link = .active
  first : (s.hlm.get m).flit.inbox = []
  awake : s.pwr.abortable = false
  credit : (s.hlm.get m).creditAvail (reqKind x.opc).credit = true
  tag : (s.hlm.get m).hasTag x.hdr = false
  fields : (s.hlm.get m).fieldCheck (reqKind x.opc) x.hdr = none

/-- Check 7: what the policer answers, and the port after it. -/
def policed (s : State) (m : Mod) (x : Msg) : Colour × Port :=
  let p := s.port.get (gport m x.hdr.port)
  p.police ((s.hlm.get m).chargeOf (reqKind x.opc) p.cls)

/-- Checks 7 to 10 pass. -/
structure Passes (s : State) (m : Mod) (x : Msg) : Prop where
  colour : (policed s m x).1 ≠ .red
  place : s.placeCheck (reqKind x.opc) (s.map.decode x.hdr.addr) = none

/-- The accepted form of the request: its place by R102, its class by R154 to R156. -/
def accepted (s : State) (m : Mod) (x : Msg) : Rq :=
  let d := s.map.decode x.hdr.addr
  mkRq (s.hlm.get m) (s.port.get (gport m x.hdr.port)) (reqKind x.opc) x d (s.map.server d.chan)
    (decide ((policed s m x).1 = .yellow)) s.now

/-- The tag record of an accepted request. -/
def tagOf (s : State) (m : Mod) (x : Msg) (ch : Option Ch) : TagRec :=
  { port := x.hdr.port, tag := x.hdr.tag, seq := (s.hlm.get m).seq, kind := reqKind x.opc, ch := ch, idx := none,
    accAt := s.now, aux := x.hdr.addr.extractLsb' 0 32 }

/-- The state in which the address map is frozen (R107), the request has been policed, and the quiet time of an entry
starts anew (R310). -/
def charged (s : State) (m : Mod) (x : Msg) : State :=
  ((s.updMap fun q => { q with frozen := true }).updPort (gport m x.hdr.port) fun _ => (policed s m x).2).stir

/-- A module after the credit of a request has been taken and has become due again (R77). -/
def spent (h : Hlm) (c : Credit) : Hlm :=
  { h with crRead := if c = .read then h.crRead - 1 else h.crRead, dueRead := if c = .read then h.dueRead + 1 else h.dueRead,
           crWrite := if c = .write then h.crWrite - 1 else h.crWrite,
           dueWrite := if c = .write then h.dueWrite + 1 else h.dueWrite,
           crCtrl := if c = .ctrl then h.crCtrl - 1 else h.crCtrl, dueCtrl := if c = .ctrl then h.dueCtrl + 1 else h.dueCtrl }

/-- A module that answers a request with an ERROR of status `e`: it joins the responses, or, where writes of the port that the
module accepted before have not drained, those that wait for them (R198). Whether its sending ends the tag is `ends`. -/
def errorFor (h : Hlm) (r : ReqHdr) (e : BitVec 4) (ends : Bool) : Hlm :=
  if ∃ w ∈ h.posted, w.port = r.port ∧ w.seq < h.seq then
    { h with errs := h.errs ++ [{ seq := h.seq, port := r.port, tag := r.tag, code := e, aux := r.addr.extractLsb' 0 32, retire := ends }] }
  else
    { h with txq := h.txq ++ [{ outMsg opERROR r.port r.tag with status := e, aux := r.addr.extractLsb' 0 32, retire := ends }] }

/-- A module that holds the tag of a refused request until its response is sent (R87). -/
def tagHeld (h : Hlm) (x : Msg) (now : Nat) : Hlm :=
  { h with tags := h.tags ++ [{ port := x.hdr.port, tag := x.hdr.tag, seq := h.seq, kind := reqKind x.opc, ch := none, idx := none,
                                accAt := now, refused := true, accepted := false, aux := x.hdr.addr.extractLsb' 0 32 }] }

/-- The data bits of a response that an upset outside the checks inverts (R471). -/
def wrongBits : Upset → Line
  | .data x => x
  | .none | .xferOnce | .xferTwice | .header | .store | .place _ => 0

/-! ## Accesses of the register fabric (R395, R398, R408) -/

/-- The answer that a direct command leaves. -/
def answered (s : State) (r : AccRes) : State := s.updMgmt fun g => { g with lastAcc := r }

/-- A write of the value `v` to a field of firmware, by firmware, leads from `s` to `t` and is answered without error. -/
abbrev fwWrites (v : Word) (s : State) (r : FwReg) (t : State) : Prop :=
  exec (.registerWrite fwIdent (.fw r) v) s = .next (answered t (.ok 0))

/-- Firmware runs and reaches its fields. -/
abbrev fwAwake (s : State) : Prop := s.mgmtOn = true ∧ s.mgmt.fw.st ≠ .restarting

/-- Firmware reaches the fields of channel n, whose quad is on. -/
abbrev fwReaches (s : State) (n : Ch) : Prop := fwAwake s ∧ s.quadOn n = true

/-- The access that CFG_RD and CFG_WR of a module ask for. -/
def cfgAccess (s : State) (m : Mod) (hd : ReqHdr) (wr : Option Word) : Access :=
  { who := portIdent m hd.port, org := .inband m (s.hlm.get m).seq, off := hd.addr.extractLsb' 0 24, wr := wr }

/-- A module that has accepted a CFG access and handed it to the fabric. -/
def cfgTaken (h : Hlm) (hd : ReqHdr) (wr : Option Word) (now : Nat) : Hlm :=
  { h with crCtrl := h.crCtrl - 1, seq := h.seq + 1,
           tags := h.tags ++ [{ port := hd.port, tag := hd.tag, seq := h.seq, kind := if wr.isSome then .cfgWr else .cfgRd,
                                ch := none, idx := none, accAt := now, aux := hd.addr.extractLsb' 0 32 }],
           cfgq := h.cfgq ++ [{ seq := h.seq, port := hd.port, tag := hd.tag, write := wr.isSome,
                                off := hd.addr.extractLsb' 0 24, v := wr.getD 0, held := false, started := true }] }

/-- An offset of an ordinary register: aligned, in no window, alias, firmware range or place with an access rule of its
own. -/
def plainOff (o : Nat) : Bool :=
  o % 4 == 0 && decide (o < 0x800000) && (windowOf o).isNone && (mbOf o).isNone && (semOf o).isNone && o != 0x2000 &&
    !isFwRange o

/-- A CFG access of a port that finds none of its port waiting, no fence and no undrained write before it, and the fabric powered
(R91); no waiting access has the order number that it takes. -/
structure CfgFree (s : State) (m : Mod) (hd : ReqHdr) : Prop where
  alone : ∀ q ∈ (s.hlm.get m).cfgq, q.port ≠ hd.port ∧ q.seq ≠ (s.hlm.get m).seq
  fence : (s.hlm.get m).fenced hd.port = false
  drained : (s.hlm.get m).postedBefore hd.port (s.hlm.get m).seq = false
  power : s.mgmtOn = true

/-- A channel's gates after a write of CHn_GATE_CTRL, before what its commit bit asks for (R172, R174). -/
def gatesAsked (g : Gates) (v : Word) : Gates :=
  { g with guard := v.extractLsb' 16 10,
           pend := { g.pend with en := v.getLsbD 8, len := (v.extractLsb' 0 5).toNat } }

/-- R173: where a list's cycle and phase are in their ranges, `u` is the first time base from `tb` on at which its cycle starts; not
`tb` itself where `later` says that the cycle of that time base has started already. -/
abbrev startsAt (l : GateList) (tb : Nat) (later : Bool) (u : Nat) : Prop :=
  l.valid = true → (u + l.cycle - l.phase) % l.cycle = 0 ∧
    (if later = true then tb < u ∧ u ≤ tb + l.cycle else tb ≤ u ∧ u < tb + l.cycle)

/-! ## Channels (R249, R294, R467) -/

/-- A channel is as it was, but for what its scheduler watchdog has seen (R467). -/
abbrev sameWatched (c d : Chan) : Prop := d = { c with st := { c.st with readyAt := d.st.readyAt, dueAt := d.st.dueAt } }

/-- The answer to a TMP of the SID comes next, no MRR of firmware waits for one of its die, and no recovery is in progress. -/
abbrev AwaitsTmp (s : State) (n : Ch) (i : SidIx) : Prop :=
  (s.chan.get n).rf.tmpSent.contains i = true ∧ (∀ q ∈ (s.chan.get n).st.mrSent, q.1 ≠ i) ∧
    (s.chan.get (s.map.server n)).st.recov = .none

/-- A pseudo-channel of channel n takes its slots (R294, R298). -/
structure TakesSlot (s : State) (n : Ch) : Prop where
  en : (s.chan.get n).cfg.recalEn = true
  awake : s.pwr.inImago = true
  lock : s.clk.pllLock = true
  leads : s.map.isFollower n = false
  mapped : s.map.mapped.getLsbD n.val = true
  serves : s.map.hole.getLsbD n.val = false
  free : (s.chan.get n).inReset = false
  dies : (s.chan.get n).st.pwr = .active

/-! ## Windows (R354) -/

/-- Writes of the accesses that waited on a window, in order. -/
def lateWrites (win : List Host.Cell) (l : List Access) : List Host.Cell :=
  l.foldl (fun w a => match a.wr with
    | some v => memWriteW w (a.off.toNat % 0x1000) v
    | none => w) win

/-- A window after fields (offset, bytes, value) of a layout have been written, in order (R362). -/
def fieldsPut (win : List Host.Cell) (w : Word) (l : List (Nat × Nat × Nat)) : List Host.Cell :=
  l.foldl (fun m x => memWriteN m (winBase w + x.1) x.2.2 x.2.1) win

/-! ## Exaux commands (R345, R362, R366) -/

/-- Firmware runs, is ready, and has taken this word from MBk under this tag; it is the next command to start (R365). -/
structure Asks (s : State) (k : Mb) (tag : BitVec 2) (w : Word) : Prop where
  runs : s.fwRuns = true
  ready : s.mgmt.fw.st = .ready
  cmd : ((s.mb k).cmds.find? (·.tag == tag)).map (·.word) = some w
  next : (s.nextCmd k).map (fun c => (c.tag, c.word)) = some (tag, w)

/-- The command of a tag has ended with this answer, which waits to be posted. -/
def ended (s : State) (k : Mb) (tag : BitVec 2) (op : BitVec 7) (status : BitVec 4) (result : BitVec 8) : State :=
  s.updMb k fun b =>
    { b with cmds := b.cmds.filter fun c => decide (c.tag ≠ tag),
             answers := b.answers ++ [{ opcode := op, tag := tag, status := status, result := result }] }

/-- The command of a tag is being carried out, its answer still owed. -/
def goesOn (s : State) (k : Mb) (tag : BitVec 2) : State :=
  s.updMb k fun b => { b with cmds := b.cmds.map fun c => if c.tag = tag then { c with running := true } else c }

/-! ## Bursts (R282) -/

/-- The core dies that the bursts of an entry reach work on their arrays: no training mode is on. -/
abbrev inArray (s : State) (n : Ch) (e : Entry) : Prop :=
  ((s.chan.get n).dies.get e.loc.sidIx).trainMode = 0 ∧
    (e.twin = true → ((s.chan.get (partner n)).dies.get e.loc.sidIx).trainMode = 0)

/-! ## One entry at the scheduler (R138) -/

/-- The engine of channel n runs with the one request `e` in its table and nothing else to do: no command is in its history,
no refresh, TRF or TMP is due, no pause, repair, gate list, cap or trip is in force. -/
structure Alone (s : State) (n : Ch) (e : Entry) : Prop where
  runs : s.engineRuns n = true
  solo : s.map.isJoined n = false
  only : (s.chan.get n).st.tt = [e]
  request : e.kind ≠ .hint ∧ e.maint = false ∧ e.waits = true
  buses : (s.chan.get n).st.hist = [] ∧ (s.chan.get n).st.rowAt = none ∧ (s.chan.get n).st.colAt = none
  slots : ∀ i, ((s.chan.get n).st.lb.get i).line = none
  answers : (s.chan.get n).st.respq = [] ∧ (s.chan.get n).st.respqF = []
  gate : (s.chan.get n).gate.force.en = false
  pauses : ∀ p, ((s.chan.get n).pc.get p).pause = .none ∧ ((s.chan.get n).pc.get p).requal = none
  repair : (s.chan.get n).repair = none
  feeds : (s.chan.get n).init = none ∧ ∀ j ∈ s.mgmt.fw.remapJobs, s.map.server j.n = n → j.waits = false
  dues : (s.chan.get n).rf.trf = [] ∧ (s.chan.get n).rf.tmpDue = []
  debts : ∀ b, (s.chan.get n).rf.debt.get b ≤ 0
  drains : ∀ b, ((s.chan.get n).trk b).drain = false
  modes : ∀ p, (s.chan.get n).st.modeAt.get p = none
  cap : (s.chan.get n).st.cap = 64
  trip : (s.chan.get n).st.tripHold = false

end Sys2Proof
end

