-- ==== Sys2Proof/Certificates/Slice0/Obligations.lean ====
section
/-! DEFINITION. The statements about the model, one `def Obligations.<Name> : Prop` each. -/

open Sys2Proof Sys2Proof.Machine

/-- A step runs the command at the front of the queue, with the queue's rest. The queue is the model's choice (log
entry 1): no rule of the spec speaks of it. -/
def Obligations.StepRunsFront : Prop :=
  ∀ (c : Instr) (rest : List Instr) (s : State), s.pending = c :: rest → step s = exec c { s with pending := rest }

/-- On an empty queue one CC passes: the model's time advances by 1 ns, the traffic time base by 1 where the PLL is
locked, and nothing else changes (the model's choice: log entry 2). -/
def Obligations.IdleStepTicks : Prop :=
  ∀ (s : State), s.pending = [] → step s = .next { s with clk := { s.clk with
    now := s.clk.now + 1, timeBase := if s.clk.pllLock = true then s.clk.timeBase + 1 else s.clk.timeBase } }

/-- Reset: the listed registers of the global, always-on, module, port and channel blocks hold the values that their
tables give in the column Reset, for every module, port and channel. By the model's choice the queue is empty (log
entry 5) and no stored byte is listed (log entries 22 and 23). -/
def Obligations.ResetRegisters : Prop :=
  State.reset.pending = [] ∧ State.reset.dram = [] ∧
  (∀ x ∈ [(0x0, 0x5A13A710), (0x4, 0x814C4168), (0x10, 0), (0x100, 0x30000000), (0x104, 0), (0x108, 0), (0x200, 0x19),
      (0x204, 0), (0x218, 0), (0x228, 0x10000000), (0x300, 0), (0x304, 0), (0x400, 0x808040), (0x404, 0x7D0),
      (0x408, 0x6E695F5A), (0x500, 0), (0x200C, 0x400)], State.reset.readGlobal x.1 = some (w32 x.2)) ∧
  (∀ x ∈ [(0x0, 0xF80000), (0x4, 0), (0x8, 0xFFFFF), (0xC, 0), (0x100, 0x8080), (0x104, 0)],
    State.reset.readAon x.1 = some (w32 x.2)) ∧
  (∀ (m : Mod), ∀ x ∈ [(0x0, 0x100000), (0x4, 0), (0x8, 0), (0xC, 0), (0x20, 0x100), (0x24, 0), (0x30, 0)],
    (State.reset.hlm.get m).readReg x.1 = some (w32 x.2)) ∧
  (∀ (k : PortK), ∀ x ∈ [(0x0, 3), (0x4, 0x3E803E80), (0x8, 0xFFFFFF), (0xC, 0xFFFFFF), (0x10, 0xFFFFFF), (0x14, 0xFFFFFF),
      (0x18, 0), (0x1C, 0), (0x20, 0), (0x24, 0), (0x28, 0)], State.reset.readPort k x.1 = some (w32 x.2)) ∧
  (∀ (n : Ch), ∀ x ∈ [(0x0, 0x140), (0x4, 0x370), (0x8, 0x05401030), (0x10, 0x20000), (0x80, 0), (0x90, 0), (0x100, 0),
      (0x10C, 0x10), (0x140, 0xF10), (0x144, 0x300040), (0x180, 0), (0x200, 0x3C0001), (0x204, 1000), (0x208, 0),
      (0x20C, 0x3CFFFF), (0x240, 0), (0x244, 0xFFFF), (0x300, 0xA0040), (0x304, 0), (0x330, 0), (0x340, 0), (0x400, 0xAA0000),
      (0x404, 0x800), (0x408, 0x80808080)], State.reset.readChan n x.1 = some (w32 x.2))

/-- The reset state's stored data is in canonical form: the form is the model's choice (log entry 5), no rule of the
spec. -/
def Obligations.ResetSafe : Prop :=
 Safe State.reset

/-- Whatever command runs, stored data stays in canonical form: addresses strictly rising, no byte listed that an
unlisted address reads as. The form is the model's choice (log entry 5), no rule of the spec. -/
def Obligations.StepKeepsSafe : Prop :=
  ∀ (s t : State), Safe s → step s = .next t → Safe t

/-- The set of mapped channels changes only at a boot or reset step: at the end of a step of a cold or warm boot, when
gh_pwrgood_i falls, and where a launched boot starts (gh_rst_n_i rises, or the last posted write of W1 takes effect).
No request, access, firmware command or event of a core die changes it. -/
def Obligations.MappedOnlyByBoot : Prop :=
  ∀ (c : Instr) (s t : State), exec c s = .next t → t.map.mapped ≠ s.map.mapped →
    (∃ r, c = .bootStepComplete r) ∨ (∃ r, c = .warmBootStepComplete r) ∨ c = .pwrgoodFall ∨ c = .rstNRelease ∨
      ∃ o, c = .postedWriteEffect o

/-- Fuse shadows survive warm reset, every boot step and every power state: outside regions 4 and 5, whose shadows a
lock ends, only the two FUSE_SHADOW commands, a firmware write of the fuse controller's shadow registers and a cold
reset change them. -/
def Obligations.ShadowsAreKept : Prop :=
  ∀ (c : Instr) (s t : State), exec c s = .next t →
    (t.mgmt.fuse.shadows.filter fun x => decide (x.1 ≠ 4 ∧ x.1 ≠ 5)) ≠
      (s.mgmt.fuse.shadows.filter fun x => decide (x.1 ≠ 4 ∧ x.1 ≠ 5)) →
    (∃ k tag, c = .fuseShadowSet k tag) ∨ (∃ k tag, c = .fuseShadowClear k tag) ∨
      (∃ who r i on v, c = .registerWrite who (.fw (.fuseShadow r i on)) v) ∨ c = .pwrgoodFall

/-- RD64, RD128 and LDR that pass the checks and that no write of the same port in the module answers take a credit, a
tag and a place in the ingress queue; nothing else but the port's policer and the frozen map changes. Clauses that
rest on the model's choices follow log entries 1 and 5. STC and the ten AMO commands that pass the checks take a read
credit, a tag and a place in the ingress queue. Clauses that rest on the model's choices follow log entries 1 and 5. A
HINT that passes the checks takes a read credit and a place in the ingress queue, and no tag: HINT tags are never
tracked. Clauses that rest on the model's choices follow log entries 1 and 5. A RD64 whose line the youngest older
write of its port in the posted-write buffer covers whole is answered in the module with RDATA that carries that
write's data, and does not enter the ingress queue. Clauses that rest on the model's choices follow log entry 1. -/
def Obligations.RequestIsQueued : Prop :=
  (∀ (i : Instr) (m : Mod) (x : Msg) (s : State), requestOf i = some (m, x) →
     (reqKind x.opc = .rd64 ∨ reqKind x.opc = .rd128 ∨ reqKind x.opc = .ldr) → Arrives s m x → Passes s m x →
     (reqKind x.opc = .rd64 → (s.hlm.get m).fenced x.hdr.port = true ∨
       (s.hlm.get m).forwardOf x.hdr.port (s.hlm.get m).seq x.hdr.addr = none) →
     exec i s = .next ((charged s m x).updHlm m fun h =>
       { h with crRead := h.crRead - 1, seq := h.seq + 1,
                tags := h.tags ++ [tagOf s m x (some (s.map.server (s.map.decode x.hdr.addr).chan))],
                ingress := h.ingress ++ [accepted s m x] })) ∧
  (∀ (i : Instr) (m : Mod) (x : Msg) (s : State), requestOf i = some (m, x) →
     (reqKind x.opc = .stc ∨ reqKind x.opc = .amo) → Arrives s m x → Passes s m x →
     exec i s = .next ((charged s m x).updHlm m fun h =>
       { h with crRead := h.crRead - 1, seq := h.seq + 1,
                tags := h.tags ++ [tagOf s m x (some (s.map.server (s.map.decode x.hdr.addr).chan))],
                ingress := h.ingress ++ [accepted s m x] })) ∧
  (∀ (m : Mod) (hd : ReqHdr) (s : State), Arrives s m (reqMsg 0x04 hd 0) → Passes s m (reqMsg 0x04 hd 0) →
     exec (.hint m hd) s = .next ((charged s m (reqMsg 0x04 hd 0)).updHlm m fun h =>
       { h with crRead := h.crRead - 1, seq := h.seq + 1, ingress := h.ingress ++ [accepted s m (reqMsg 0x04 hd 0)] })) ∧
  (∀ (m : Mod) (hd : ReqHdr) (w : Rq) (s : State), Arrives s m (reqMsg 0x01 hd 0) → Passes s m (reqMsg 0x01 hd 0) →
     (s.hlm.get m).fenced hd.port = false →
     ((s.hlm.get m).posted.filter fun r => r.port == hd.port && decide (r.seq < (s.hlm.get m).seq)
       && r.addr.toNat / 64 == hd.addr.toNat / 64).getLast? = some w →
     (w.kind = .wr64 ∨ w.mask = BitVec.allOnes 64) →
     ∃ t, exec (.rd64 m hd) s = .next t ∧ (t.hlm.get m).ingress = (s.hlm.get m).ingress ∧
       (t.hlm.get m).posted = (s.hlm.get m).posted ∧
       (t.hlm.get m).txq = (s.hlm.get m).txq ++
         [{ outMsg 0x01 hd.port hd.tag with dsz := 3, data := w.data.setWidth 1024, credit := .read }] ∧
       (t.hlm.get m).crRead = (s.hlm.get m).crRead - 1 ∧
       (∀ k, k ≠ m → t.hlm.get k = s.hlm.get k) ∧ t.chan = s.chan ∧ t.dram = s.dram ∧ t.mgmt = s.mgmt)

/-- WR64 and WRP that pass the checks take a write credit, a tag and a place in the posted-write buffer. Clauses that
rest on the model's choices follow log entries 1 and 5. -/
def Obligations.WriteIsPosted : Prop :=
  ∀ (i : Instr) (m : Mod) (x : Msg) (s : State), requestOf i = some (m, x) →
    (reqKind x.opc = .wr64 ∨ reqKind x.opc = .wrp) → Arrives s m x → Passes s m x →
    exec i s = .next ((charged s m x).updHlm m fun h =>
      { h with crWrite := h.crWrite - 1, seq := h.seq + 1,
               tags := h.tags ++ [tagOf s m x (some (s.map.server (s.map.decode x.hdr.addr).chan))],
               posted := h.posted ++ [accepted s m x] })

/-- What the checks refuse, in their order, and what a refusal does. Without its credit a request is counted and, but
for a HINT, answered with NOCREDIT; the tag is taken only where it was free. With an outstanding tag it is counted and
answered with TAGDUP, which leaves the tag. A header whose parity fails is answered with HWFAULT and reported. With a
bad field, a misaligned address or after SR_ENTER (checks 4 to 6), and at check 8, 9 or 10, it is answered with the
code of the check. From the second check on its credit is due again. An ERROR carries the low address bits, and waits
while the posted-write buffer holds earlier writes of its port; a HINT is dropped. Clauses that rest on the model's
choices follow log entries 5 and 81. A red memory request is refused with THROTTLED, whose sending ends its tag, and a
red HINT is dropped; its credit becomes due again, the refusal is counted for the module's event, and it goes no
further. Clauses that rest on the model's choices follow log entry 5. -/
def Obligations.Refusals : Prop :=
  ((∀ (i : Instr) (m : Mod) (x : Msg) (s : State), requestOf i = some (m, x) → Legal x →
     (s.hlm.get m).link = .active → (s.hlm.get m).flit.inbox = [] → s.pwr.abortable = false →
     ((s.hlm.get m).creditAvail (reqKind x.opc).credit = false →
       (reqKind x.opc = .hint → exec i s = .next (s.updHlm m fun h => { h with nocredit := satInc h.nocredit })) ∧
       (reqKind x.opc ≠ .hint → (s.hlm.get m).hasTag x.hdr = false →
         exec i s = .next (s.updHlm m fun h =>
           errorFor (tagHeld { h with nocredit := satInc h.nocredit } x s.now) x.hdr 4 true)) ∧
       (reqKind x.opc ≠ .hint → (s.hlm.get m).hasTag x.hdr = true →
         exec i s = .next (s.updHlm m fun h => errorFor { h with nocredit := satInc h.nocredit } x.hdr 4 false))) ∧
     ((s.hlm.get m).creditAvail (reqKind x.opc).credit = true →
       (reqKind x.opc ≠ .hint → (s.hlm.get m).hasTag x.hdr = true →
         exec i s = .next (s.updHlm m fun h =>
           errorFor { spent h (reqKind x.opc).credit with tagdup := satInc h.tagdup } x.hdr 5 false)) ∧
       (∀ e, reqKind x.opc ≠ .hint → (s.hlm.get m).hasTag x.hdr = false → (s.hlm.get m).fieldCheck (reqKind x.opc) x.hdr = some e →
         exec i s = .next (s.updHlm m fun h => errorFor (tagHeld (spent h (reqKind x.opc).credit) x s.now) x.hdr e true)) ∧
       (∀ e, reqKind x.opc = .hint → (s.hlm.get m).fieldCheck (reqKind x.opc) x.hdr = some e →
         exec i s = .next (s.updHlm m fun h => spent h .read)) ∧
       (∀ e, (reqKind x.opc = .hint ∨ (s.hlm.get m).hasTag x.hdr = false) → (s.hlm.get m).fieldCheck (reqKind x.opc) x.hdr = none →
         (reqKind x.opc).onPath = true → (policed s m x).1 ≠ .red →
         s.placeCheck (reqKind x.opc) (s.map.decode x.hdr.addr) = some e →
         exec i s = .next (((s.updPort (gport m x.hdr.port) fun _ => (policed s m x).2).updMap fun q =>
             { q with frozen := q.frozen || (decide ((s.map.decode x.hdr.addr).status ≠ 1) &&
               decide ((s.map.decode x.hdr.addr).status ≠ 2)) }).updHlm m fun h =>
           if reqKind x.opc = .hint then spent h .read
           else errorFor (tagHeld (spent h (reqKind x.opc).credit) x s.now) x.hdr e true)))) ∧
   ∀ (i : Instr) (m : Mod) (hd : ReqHdr) (v : Word) (x : Msg) (s : State),
     (i, x) ∈ [(.fenceW m ⟨hd, true⟩, reqMsg 0x20 hd 0), (.fenceAll m ⟨hd, true⟩, reqMsg 0x21 hd 0),
       (.cfgRd m ⟨hd, true⟩, reqMsg 0x28 hd 0), (.cfgWr m ⟨hd, true⟩ v, reqMsg 0x29 hd (v.setWidth 576)),
       (.srEnter m ⟨hd, true⟩, reqMsg 0x3E hd 0)] →
     (s.hlm.get m).link = .active → (s.hlm.get m).flit.inbox = [] → s.pwr.abortable = false →
     (s.hlm.get m).creditAvail (reqKind x.opc).credit = true → (s.hlm.get m).hasTag hd = false →
     exec i s = .next ((s.updHlm m fun h => errorFor (tagHeld (spent h (reqKind x.opc).credit) x s.now) hd 9 true).raise 356 1 1
       (BitVec.ofNat 32 m.val))) ∧
  (∀ (i : Instr) (m : Mod) (x : Msg) (s : State), requestOf i = some (m, x) → (reqKind x.opc).onPath = true →
     Arrives s m x → (policed s m x).1 = .red →
     ∃ t, exec i s = .next t ∧
       (reqKind x.opc ≠ .hint → (t.hlm.get m).txq = (s.hlm.get m).txq ++ [outMsg opTHROTTLED x.hdr.port x.hdr.tag] ∧
         (t.hlm.get m).tags = (tagHeld (s.hlm.get m) x s.now).tags) ∧
       (reqKind x.opc = .hint → (t.hlm.get m).txq = (s.hlm.get m).txq ∧ (t.hlm.get m).tags = (s.hlm.get m).tags) ∧
       (t.hlm.get m).crRead = (spent (s.hlm.get m) (reqKind x.opc).credit).crRead ∧
       (t.hlm.get m).dueRead = (spent (s.hlm.get m) (reqKind x.opc).credit).dueRead ∧
       (t.hlm.get m).crWrite = (spent (s.hlm.get m) (reqKind x.opc).credit).crWrite ∧
       (t.hlm.get m).dueWrite = (spent (s.hlm.get m) (reqKind x.opc).credit).dueWrite ∧
       (t.hlm.get m).ingress = (s.hlm.get m).ingress ∧ (t.hlm.get m).posted = (s.hlm.get m).posted ∧
       t.port.get (gport m x.hdr.port) = (policed s m x).2 ∧ t.chan = s.chan ∧ t.dram = s.dram ∧ t.map = s.map)

/-- The policer: the colours of R160 in order, and what each takes from the buckets. -/
def Obligations.PolicerColours : Prop :=
  ∀ (p : Port) (l : Nat),
    (p.en = false → p.police l = (.green, { p with green := p.green + 1 })) ∧
    (p.en = true → p.tokP < max l 1 → p.police l = (.red, { p with red := p.red + 1 })) ∧
    (p.en = true → max l 1 ≤ p.tokP → p.tokC < max l 1 →
      p.police l = (.yellow, { p with tokP := p.tokP - l, yellow := p.yellow + 1 })) ∧
    (p.en = true → max l 1 ≤ p.tokP → max l 1 ≤ p.tokC →
      p.police l = (.green, { p with tokC := p.tokC - l, tokP := p.tokP - l, green := p.green + 1 }))

/-- FENCE.W and FENCE.ALL that pass the checks are recorded, with their tag and a read credit taken; NOP changes
nothing. The oldest fence of a port that is not complete completes where its condition holds: its FENCE_DONE, with its
tag, joins the responses to be sent, and it holds what it holds until that is sent; nothing else changes. Clauses that
rest on the model's choices follow log entry 28. -/
def Obligations.Fences : Prop :=
  ((∀ (m : Mod) (hd : ReqHdr) (s : State), exec (.nop m hd) s = .next s) ∧
   ∀ (i : Instr) (m : Mod) (x : Msg) (s : State), requestOf i = some (m, x) →
     (reqKind x.opc = .fenceW ∨ reqKind x.opc = .fenceAll) → Arrives s m x →
     exec i s = .next ((s.updHlm m fun h =>
       { h with crRead := h.crRead - 1, seq := h.seq + 1, tags := h.tags ++ [tagOf s m x none],
                fences := h.fences ++ [{ seq := h.seq, port := x.hdr.port, tag := x.hdr.tag,
                                         all := decide (reqKind x.opc = .fenceAll) }] }).stir)) ∧
  (∀ (m : Mod) (p : BitVec 4) (f : Fence) (s : State),
     (s.hlm.get m).fences.find? (fun f => f.port == p && !f.done) = some f → s.fenceMet m f = true →
     exec (.fenceComplete m p) s = .next (s.updHlm m fun h =>
       { h with fences := h.fences.map fun x => if x = f then { x with done := true } else x,
                txq := h.txq ++ [{ outMsg opFENCE f.port f.tag with credit := .read }] }))

/-- A flit assembled from a header and 240 bytes of slots has a good CRC, and parsing gives back the header and every
slot. -/
def Obligations.FlitRoundTrip : Prop :=
  ∀ (h : FlitHdr) (slots : BitVec 1920),
    flitCrcOk (mkFlit h slots) = true ∧ parseFlitHdr (mkFlit h slots) = h ∧
    ∀ i, i < 30 → flitSlot (mkFlit h slots) i = slots.extractLsb' (64 * i) 64

/-- The header slot of a response holds every field at its place, and so does the header slot of an EVENT message.
Every ZCI frame has even parity, and each field of the frame of each row command and of each column command stands at
its place; a field that the command does not use and the reserved bits are 0. -/
def Obligations.Layouts : Prop :=
  ((∀ o : OutMsg,
     (respHdr o).extractLsb' 0 6 = o.opc ∧ (respHdr o).extractLsb' 6 4 = o.port ∧ (respHdr o).extractLsb' 10 10 = o.tag ∧
     (respHdr o).extractLsb' 20 4 = o.status ∧ (respHdr o).getLsbD 24 = o.poison ∧ (respHdr o).extractLsb' 25 3 = o.dsz ∧
     (respHdr o).extractLsb' 28 4 = 0 ∧ (respHdr o).extractLsb' 32 32 = o.aux) ∧
   ∀ (e : Ev) (port : BitVec 4) (occ : BitVec 16),
     (eventSlot e port occ).extractLsb' 0 6 = 0x10 ∧ (eventSlot e port occ).extractLsb' 6 4 = port ∧
     (eventSlot e port occ).extractLsb' 10 22 = 0 ∧ (eventSlot e port occ).extractLsb' 32 9 = BitVec.ofNat 9 e.val ∧
     (eventSlot e port occ).extractLsb' 41 7 = 0 ∧ (eventSlot e port occ).extractLsb' 48 16 = occ) ∧
  ((∀ (op : Zci) (l : Loc) (a d : BitVec 8), parity (rowFrame op l a d) = false) ∧
   (∀ (op : Zci) (l : Loc), parity (colFrame op l) = false) ∧
   (∀ (op : Zci) (r : Nat) (l : Loc) (a d : BitVec 8),
     (op, r) ∈ [(.act, 1), (.pre, 2), (.preab, 3), (.refpb, 4), (.refab, 5), (.trf, 6), (.mrw, 7), (.mrr, 8), (.tmp, 9),
       (.pde, 10), (.pdx, 11), (.sre, 12), (.srx, 13)] →
     (rowFrame op l a d).extractLsb' 35 4 = BitVec.ofNat 4 r ∧
     (rowFrame op l a d).extractLsb' 33 2 = (if r ≤ 9 then l.sid else 0) ∧
     (rowFrame op l a d).extractLsb' 32 1 = (if r ≤ 9 ∧ op ≠ .mrw then l.pc else 0) ∧
     (rowFrame op l a d).extractLsb' 30 2 = (if op ∈ [.act, .pre, .refpb, .trf] then l.bg else 0) ∧
     (rowFrame op l a d).extractLsb' 28 2 = (if op ∈ [.act, .pre, .refpb, .trf] then l.ba else 0) ∧
     (rowFrame op l a d).extractLsb' 14 14 =
       (if op ∈ [.act, .trf] then l.row else if op ∈ [.mrw, .mrr] then a.setWidth 14 else 0) ∧
     (rowFrame op l a d).extractLsb' 8 6 = 0 ∧ (rowFrame op l a d).extractLsb' 0 8 = (if op = .mrw then d else 0)) ∧
   ∀ (op : Zci) (c : Nat) (l : Loc), (op, c) ∈ [(.rd, 0), (.rda, 1), (.wr, 2), (.wra, 3)] →
     (colFrame op l).extractLsb' 30 1 = 1 ∧ (colFrame op l).extractLsb' 28 2 = BitVec.ofNat 2 c ∧
     (colFrame op l).extractLsb' 26 2 = l.sid ∧ (colFrame op l).extractLsb' 25 1 = l.pc ∧
     (colFrame op l).extractLsb' 23 2 = l.bg ∧ (colFrame op l).extractLsb' 21 2 = l.ba ∧
     (colFrame op l).extractLsb' 17 4 = l.col ∧ (colFrame op l).extractLsb' 0 17 = 0)

/-- What an active module does with a flit that arrives. An acknowledgment in a flit with a good CRC frees the flits
it covers, whatever else the flit holds. A DATA flit with the expected number is accepted: the expected number rises
by 1, its slots go through the parser, and whole messages join the queue of messages received. One 1 to 64 numbers
behind is a duplicate, whose rest is discarded; one of any other number, and a flit with a bad CRC, ask for a replay
where no NAK was sent within the last 256 ns. A flit of an IDLE kind has its acknowledgment and NAK only. A NAK starts
a replay from the oldest flit not acknowledged, which is counted; where none is left it does nothing, and where that
flit has been sent 8 times the link resets. A flit of a reserved type is a protocol error: it is counted, and the link
resets where a reset can start. Clauses that rest on the model's choices follow log entries 5 and 55. -/
def Obligations.FlitIsTaken : Prop :=
  (∀ (m : Mod) (f : BitVec 2048) (s : State), (s.hlm.get m).link = .active → flitCrcOk f = true →
    (parseFlitHdr f).nak = false →
    ((parseFlitHdr f).ftype = 1 → (parseFlitHdr f).seq = (s.hlm.get m).flit.rxNext →
      (parseSlots (s.hlm.get m).flit.rxPart (parseFlitHdr f).fhs (flitSlots f)).bad = false →
      exec (.flitReceive m f) s = .next (s.updHlm m fun h =>
        let p := parseSlots h.flit.rxPart (parseFlitHdr f).fhs (flitSlots f)
        { h with flit := { (if (parseFlitHdr f).ackv then h.flit.acked (parseFlitHdr f).ack else h.flit) with
            rxNext := h.flit.rxNext + 1, ackv := true, nakSentAt := none, rxPart := p.part,
            inbox := h.flit.inbox ++ p.msgs } })) ∧
    ((parseFlitHdr f).ftype = 2 ∨ (parseFlitHdr f).ftype = 1 ∧ 1 ≤ ((s.hlm.get m).flit.rxNext - (parseFlitHdr f).seq).toNat ∧
        ((s.hlm.get m).flit.rxNext - (parseFlitHdr f).seq).toNat ≤ 64 →
      exec (.flitReceive m f) s = .next (s.updHlm m fun h =>
        { h with flit := if (parseFlitHdr f).ackv then h.flit.acked (parseFlitHdr f).ack else h.flit })) ∧
    ((parseFlitHdr f).ftype = 1 → 64 < ((s.hlm.get m).flit.rxNext - (parseFlitHdr f).seq).toNat →
      exec (.flitReceive m f) s = .next (s.updHlm m fun h =>
        { h with flit := { (if (parseFlitHdr f).ackv then h.flit.acked (parseFlitHdr f).ack else h.flit) with
            nakPending := h.flit.nakPending || h.flit.nakSentAt.all fun t => decide (t + 256 ≤ s.now) } }))) ∧
  (∀ (m : Mod) (f : BitVec 2048) (s : State), (s.hlm.get m).link = .active → flitCrcOk f = false →
    exec (.flitReceive m f) s = .next (s.updHlm m fun h => { h with flit := { h.flit with
      nakPending := h.flit.nakPending || h.flit.nakSentAt.all fun t => decide (t + 256 ≤ s.now) } })) ∧
  (∀ (m : Mod) (f : BitVec 2048) (fl : FlitState) (s : State), (s.hlm.get m).link = .active → flitCrcOk f = true →
    (parseFlitHdr f).nak = true → (parseFlitHdr f).ftype = 1 ∨ (parseFlitHdr f).ftype = 2 →
    fl = (if (parseFlitHdr f).ackv then (s.hlm.get m).flit.acked (parseFlitHdr f).ack else (s.hlm.get m).flit) →
    ((parseFlitHdr f).ftype = 2 → fl.replay = [] → exec (.flitReceive m f) s = .next (s.updHlm m fun h => { h with flit := fl })) ∧
    (∀ e, fl.replay.head? = some e → e.sends < 8 →
      (parseSlots (s.hlm.get m).flit.rxPart (parseFlitHdr f).fhs (flitSlots f)).bad = false →
      ∃ t, exec (.flitReceive m f) s = .next t ∧ (t.hlm.get m).flit.replayAt = some e.seq ∧
        (t.hlm.get m).flit.replay = fl.replay ∧ (t.hlm.get m).replayCnt = satInc (s.hlm.get m).replayCnt ∧
        ((parseFlitHdr f).ftype = 1 → (parseFlitHdr f).seq = (s.hlm.get m).flit.rxNext →
          (t.hlm.get m).flit.rxNext = (s.hlm.get m).flit.rxNext + 1 ∧ (t.hlm.get m).flit.inbox = (s.hlm.get m).flit.inbox ++
            (parseSlots (s.hlm.get m).flit.rxPart (parseFlitHdr f).fhs (flitSlots f)).msgs) ∧
        ((parseFlitHdr f).ftype = 2 → (t.hlm.get m).flit.rxNext = (s.hlm.get m).flit.rxNext ∧
          (t.hlm.get m).flit.inbox = (s.hlm.get m).flit.inbox) ∧
        (∀ k, k ≠ m → t.hlm.get k = s.hlm.get k) ∧ t.chan = s.chan ∧ t.port = s.port ∧ t.dram = s.dram) ∧
    (∀ e, fl.replay.head? = some e → 8 ≤ e.sends → s.canReset m = true →
      ∃ t, exec (.flitReceive m f) s = .next t ∧ (t.hlm.get m).link = .reset ∧ ∀ k, k ≠ m → t.hlm.get k = s.hlm.get k)) ∧
  (∀ (m : Mod) (f : BitVec 2048) (s : State), (s.hlm.get m).link = .active → flitCrcOk f = true →
    (parseFlitHdr f).ftype ≠ 1 → (parseFlitHdr f).ftype ≠ 2 → s.canReset m = true →
    ∃ t, exec (.flitReceive m f) s = .next t ∧ (t.hlm.get m).proto = satInc (s.hlm.get m).proto ∧
      (t.hlm.get m).link = .reset ∧ (t.hlm.get m).linkResets = (s.hlm.get m).linkResets + 1 ∧
      ∀ k, k ≠ m → t.hlm.get k = s.hlm.get k)

/-- What an active module sends in a flit time, which is 1 ns at 32 GT/s and 2 ns at 16 GT/s after the flit before.
With nothing to send it is an IDLE flit with the number of the last DATA flit; it carries a NAK that is pending and
acknowledges the last flit accepted. With something to send, and fewer than 64 flits unacknowledged, it is a new DATA
flit with the next number, kept for replay; the credits it returns become the host's. A response at the front of the
queue, where no message is being sent, has its header in slot 0; its tag retires. In a replay it is the flit at which
the replay stands, as it was first sent. Clauses that rest on the model's choices follow log entry 30. -/
def Obligations.FlitIsSent : Prop :=
  (∀ (m : Mod) (s : State), (s.hlm.get m).link = .active → (s.hlm.get m).flit.replayAt = none →
    (s.hlm.get m).flit.txSlots = [] → (s.hlm.get m).txq = [] → (s.hlm.get m).evq = [] → (s.hlm.get m).dueRead = 0 →
    (s.hlm.get m).dueWrite = 0 → (s.hlm.get m).dueCtrl = 0 →
    exec (.flitTransmit m) s = .next ((s.nextFlit m).updHlm m fun h => { h with flit := { h.flit with
      last := some (mkFlit { nak := h.flit.nakPending, ackv := h.flit.ackv, ccr := 0, wcr := 0, rcr := 0, fhs := 0,
                             ftype := 2, ack := if h.flit.ackv then h.flit.rxNext - 1 else 0,
                             seq := h.flit.txLast.getD 0 } 0),
      nakPending := false, nakSentAt := if h.flit.nakPending then some (s.nextFlit m).now else h.flit.nakSentAt } })) ∧
  (∀ (m : Mod) (s : State), (s.hlm.get m).link = .active → (s.hlm.get m).flit.replayAt = none →
    (s.hlm.get m).flit.replay.length < 64 → (s.hlm.get m).retrains = [] →
    ((s.hlm.get m).flit.txSlots ≠ [] ∨ (s.hlm.get m).txq ≠ [] ∨ (s.hlm.get m).evq ≠ [] ∨ 0 < (s.hlm.get m).dueRead ∨
      0 < (s.hlm.get m).dueWrite ∨ 0 < (s.hlm.get m).dueCtrl) →
    ∃ t, exec (.flitTransmit m) s = .next t ∧ (∃ e, (t.hlm.get m).flit.replay = (s.hlm.get m).flit.replay ++ [e] ∧
      e.seq = (s.hlm.get m).flit.txSeq ∧ e.sends = 1 ∧ e.sentAt = (s.nextFlit m).now ∧
      (t.hlm.get m).flit.txSeq = (s.hlm.get m).flit.txSeq + 1 ∧ (t.hlm.get m).flit.txLast = some e.seq ∧
      (t.hlm.get m).flit.last = some (mkFlit
        { nak := (s.hlm.get m).flit.nakPending, ackv := (s.hlm.get m).flit.ackv, ccr := e.ccr, wcr := e.wcr, rcr := e.rcr,
          fhs := e.fhs, ftype := 1,
          ack := if (s.hlm.get m).flit.ackv then (s.hlm.get m).flit.rxNext - 1 else 0, seq := e.seq } e.slots) ∧
      (t.hlm.get m).crRead = (s.hlm.get m).crRead + e.rcr.toNat ∧
      (t.hlm.get m).crWrite = (s.hlm.get m).crWrite + e.wcr.toNat ∧
      (t.hlm.get m).crCtrl = (s.hlm.get m).crCtrl + e.ccr.toNat ∧
      (∀ o, (s.hlm.get m).txq.head? = some o → (s.hlm.get m).flit.txSlots = [] →
        e.slots.extractLsb' 0 64 = respHdr o ∧ e.fhs = 0 ∧
        (o.retire = true → ∀ x ∈ (t.hlm.get m).tags, ¬ (x.port = o.port ∧ x.tag = o.tag)))) ∧
      (∀ k, k ≠ m → t.hlm.get k = s.hlm.get k) ∧ t.chan = s.chan ∧ t.dram = s.dram ∧ t.map = s.map) ∧
  (∀ (m : Mod) (q : BitVec 12) (e : TxFlit) (r : List TxFlit) (s : State), (s.hlm.get m).link = .active →
    (s.hlm.get m).flit.replayAt = some q → (s.hlm.get m).flit.replay.dropWhile (·.seq != q) = e :: r →
    ∃ h, exec (.flitTransmit m) s = .next ((s.nextFlit m).updHlm m fun _ => h) ∧ h.flit.replayAt = r.head?.map (·.seq) ∧
      h.flit.last = some (mkFlit
        { nak := (s.hlm.get m).flit.nakPending, ackv := (s.hlm.get m).flit.ackv, ccr := e.ccr, wcr := e.wcr, rcr := e.rcr,
          fhs := e.fhs, ftype := 1,
          ack := if (s.hlm.get m).flit.ackv then (s.hlm.get m).flit.rxNext - 1 else 0, seq := e.seq } e.slots) ∧
      h.flit.txSeq = (s.hlm.get m).flit.txSeq ∧ h.txq = (s.hlm.get m).txq ∧ h.crRead = (s.hlm.get m).crRead) ∧
  ∀ (m : Mod) (s : State), (s.nextFlit m).clk.now = match (s.hlm.get m).flitAt with
    | none => s.clk.now
    | some u => max s.clk.now (u + if (s.hlm.get m).rate16 then 2 else 1)

/-- The timers of a link. 256 ns after the oldest unacknowledged flit was sent, a replay starts from it and is
counted; where that flit has been sent 8 times the link resets and, where no window is open and no entry to a low-
power state ends with it, the event of link retries alone reports it; 256 ns after a NAK another may be sent; a
counting window closes at its length. Clauses that rest on the model's choices follow log entries 2, 55 and 86. A
module link reset asked for by the host: its queues and fences go, the writes it has accepted stay, the reservations
of its ports are lost, and no other module is touched. Its tags and credits go with them, but where messages that have
arrived still wait to be checked against them, which is the model's choice of log entry 5. From link reset or cold
start to an active link: the drain ends, training completes or falls back to 16 GT/s and then gives up, and a module
that is down tries again 1 ms after its latest attempt; where training starts the module takes up its trims. Clauses
that rest on the model's choices follow log entries 2, 3 and 54. -/
def Obligations.LinkStates : Prop :=
  ((∀ (m : Mod) (e : TxFlit) (r : List TxFlit) (s : State), (s.hlm.get m).link = .active →
     (s.hlm.get m).flit.replay = e :: r → e.sends < 8 →
     ∃ t, exec (.replayTimeout m) s = .next t ∧ t.clk.now = max s.clk.now (e.sentAt + 256) ∧
       (t.hlm.get m).flit.replayAt = some e.seq ∧ (t.hlm.get m).flit.replay = (s.hlm.get m).flit.replay ∧
       (t.hlm.get m).replayCnt = satInc (s.hlm.get m).replayCnt ∧ (t.hlm.get m).link = .active ∧
       (∀ k, k ≠ m → t.hlm.get k = s.hlm.get k) ∧ t.chan = s.chan ∧ t.port = s.port ∧ t.dram = s.dram) ∧
   (∀ (m : Mod) (e : TxFlit) (r : List TxFlit) (s : State), (s.hlm.get m).link = .active →
     (s.hlm.get m).flit.replay = e :: r → 8 ≤ e.sends → s.canReset m = true →
     ∃ t, exec (.replayTimeout m) s = .next t ∧ (t.hlm.get m).link = .reset ∧ (t.hlm.get m).flit.replay = [] ∧
       ((s.hlm.get m).retryWin = none → (s.hlm.get m).retryThresh ≠ 0 → s.pwr.abortable = false → t.mgmt.occq = s.mgmt.occq ++
         [{ e := evRetry m, cause := 1, detA := (s.hlm.get m).retryThresh.setWidth 24, detB := 0, tb := t.clk.timeBase }]) ∧
       ∀ k, k ≠ m → t.hlm.get k = s.hlm.get k) ∧
   (∀ (m : Mod) (u : Nat) (s : State), (s.hlm.get m).flit.nakSentAt = some u →
     exec (.nakHoldoffExpiry m) s =
       .next ((s.advance (u + 256)).updHlm m fun h => { h with flit := { h.flit with nakSentAt := none } })) ∧
   (∀ (m : Mod) (w : Window) (s : State), (s.hlm.get m).retryWin = some w →
     exec (.retryWindowClose m) s =
       .next ((s.advance (w.openedAt + w.length)).updHlm m fun h => { h with retryWin := none })) ∧
   (∀ (m : Mod) (w : Window) (s : State), (s.hlm.get m).policeWin = some w →
     exec (.policeWindowClose m) s =
       .next ((s.advance (w.openedAt + w.length)).updHlm m fun h => { h with policeWin := none })) ∧
   (∀ (n : Ch) (w : Window) (s : State), (s.chan.get n).st.ceWindow = some w →
     exec (.ceWindowClose n) s =
       .next ((s.advance (w.openedAt + w.length)).updChan n fun c => c.updSt fun x => { x with ceWindow := none }))) ∧
  (∀ (m : Mod) (s : State), s.canReset m = true →
     ∃ t, exec (.hostLinkResetRequest m) s = .next t ∧ (t.hlm.get m).link = .reset ∧
       (t.hlm.get m).linkResets = (s.hlm.get m).linkResets + 1 ∧ (t.hlm.get m).ingress = [] ∧
       (t.hlm.get m).fences = [] ∧ (t.hlm.get m).cfgq = [] ∧ (t.hlm.get m).txq = [] ∧
       ((s.hlm.get m).flit.inbox = [] → (t.hlm.get m).tags = [] ∧ (t.hlm.get m).crRead = 512 ∧
         (t.hlm.get m).crWrite = 256 ∧ (t.hlm.get m).crCtrl = 16) ∧
       ((s.hlm.get m).flit.inbox ≠ [] → (t.hlm.get m).tags = (s.hlm.get m).tags ∧
         (t.hlm.get m).flit.inbox = (s.hlm.get m).flit.inbox ∧ (t.hlm.get m).crRead = (s.hlm.get m).crRead) ∧
       (t.hlm.get m).posted = (s.hlm.get m).posted.map (fun r => { r with held := false }) ∧
       (t.hlm.get m).halves = [] ∧
       (∀ n, (t.chan.get n).rsvNow = (s.chan.get n).rsvNow.filter fun r => portMod r.port ≠ m) ∧
       (∀ n, (t.chan.get n).st.tt = (s.chan.get n).st.tt) ∧ (∀ k, k ≠ m → t.hlm.get k = s.hlm.get k) ∧
       t.port = s.port ∧ t.dram = s.dram ∧ t.map = s.map) ∧
  ((∀ (m : Mod) (s : State), (s.hlm.get m).link = .reset → s.linkOk m = true → (s.hlm.get m).posted = [] →
     (s.hlm.get m).flit.inbox = [] →
     exec (.moduleDrainComplete m) s =
       .next ((s.updHlm m fun h => { h with trainAt16 := h.maxRate == 1, lastTry := s.now, drained := true }).updFuse
         fun f => f.takeTrims (trimsOf m.val))) ∧
   (∀ (m : Mod) (rate16 : Bool) (rep : BitVec 4) (s : State), (s.hlm.get m).inTraining = true → s.linkOk m = true →
     ∃ t, exec (.linkTrainingDone m rate16 rep) s = .next t ∧ (t.hlm.get m).link = .active ∧
       (t.hlm.get m).rate16 = ((s.hlm.get m).trainAt16 || rate16) ∧ (t.hlm.get m).lanesRepaired = rep ∧
       (t.hlm.get m).crRead = 512 ∧ (t.hlm.get m).crWrite = 256 ∧ (t.hlm.get m).crCtrl = 16 ∧
       (t.hlm.get m).flit.txSeq = 0 ∧ (t.hlm.get m).flit.rxNext = 0 ∧ (t.hlm.get m).flit.ackv = false ∧
       (∀ q ∈ (t.hlm.get m).evq, (s.mgmt.ev.get q.e).msgEn = true ∧ (s.mgmt.ev.get q.e).module = m ∧
         (s.mgmt.ev.get q.e).occ ≠ (s.mgmt.ev.get q.e).ack ∧ q.port = (s.mgmt.ev.get q.e).port) ∧
       (∀ k, (s.mgmt.ev.get k).msgEn = true → (s.mgmt.ev.get k).module = m →
         (s.mgmt.ev.get k).occ ≠ (s.mgmt.ev.get k).ack →
         { e := k, port := (s.mgmt.ev.get k).port } ∈ (t.hlm.get m).evq) ∧
       (∀ k, k ≠ m → t.hlm.get k = s.hlm.get k) ∧ t.chan = s.chan ∧ t.port = s.port ∧ t.dram = s.dram) ∧
   (∀ (m : Mod) (s : State), (s.hlm.get m).inTraining = true → s.linkOk m = true → (s.hlm.get m).trainAt16 = false →
     exec (.linkTrainingFailure m) s = .next (s.updHlm m fun h => { h with trainAt16 := true })) ∧
   (∀ (m : Mod) (s : State), (s.hlm.get m).inTraining = true → s.linkOk m = true → (s.hlm.get m).trainAt16 = true →
     exec (.linkTrainingFailure m) s = .next (s.updHlm m fun h => { h with link := .down })) ∧
   (∀ (m : Mod) (s : State), (s.hlm.get m).link = .down → (s.hlm.get m).usable = true →
     s.linkOk m = true → exec (.trainingRetry m) s =
       .next (((s.advance ((s.hlm.get m).lastTry + 1000000)).updHlm m fun h =>
         { h with trainAt16 := h.maxRate == 1, link := .training,
                  lastTry := max s.now ((s.hlm.get m).lastTry + 1000000) }).updFuse fun f => f.takeTrims (trimsOf m.val))))

/-- Two addresses of a map that lie in range have different places unless they are in one 64-byte line: the map is one
to one. An address at or above the capacity reads as status 1, one below it as another status. -/
def Obligations.AddressMap : Prop :=
  (∀ (q : Map) (a b : BitVec 40), q.gran ≠ 3 → q.nsid ≤ 4 → (q.decode a).status = 0 → (q.decode b).status = 0 →
     (q.decode a).chan = (q.decode b).chan → (q.decode a).loc = (q.decode b).loc → a.toNat / 64 = b.toNat / 64) ∧
  (∀ (q : Map) (a : BitVec 40), q.gran ≠ 3 → ((q.decode a).status = 1 ↔ q.capacity ≤ a.toNat))

/-- CFG_RD and CFG_WR that pass the checks take a control credit and a tag. With no access of the port waiting, no
fence, no earlier write of the port undrained and the fabric powered, the access is performed; behind a fence it
waits. Clauses that rest on the model's choices follow log entries 28 and 40. A CFG_RD of an ordinary register, in a
domain that is powered, is answered at once with CFG_DATA and the register's word; a CFG_WR whose write is performed
is answered with WACK; so is one of GLB_MAP_CFG before the first request, which sets the map's fields. Nothing else
changes but the credit and tag taken. Clauses that rest on the model's choices follow log entries 1 and 28. An access
performed for a CFG command, in the order of R400, is answered on its module: CFG_DATA with the word read, WACK for a
write done, ERROR with the low offset bits for one refused, whose credit is then due. Clauses that rest on the model's
choices follow log entries 1 and 28. -/
def Obligations.CfgAccess : Prop :=
  ((∀ (m : Mod) (hd : ReqHdr) (s : State), Arrives s m (reqMsg 0x28 hd 0) →
     (s.hlm.get m).cfgq.find? (·.port == hd.port) = none → (s.hlm.get m).fenced hd.port = false →
     (s.hlm.get m).postedBefore hd.port (s.hlm.get m).seq = false → s.mgmtOn = true →
     exec (.cfgRd m ⟨hd, false⟩) s = .next ((s.updHlm m fun h => cfgTaken h hd none s.now).access (cfgAccess s m hd none))) ∧
   (∀ (m : Mod) (hd : ReqHdr) (v : Word) (s : State), Arrives s m (reqMsg 0x29 hd (v.setWidth 576)) →
     (s.hlm.get m).cfgq.find? (·.port == hd.port) = none → (s.hlm.get m).fenced hd.port = false →
     (s.hlm.get m).postedBefore hd.port (s.hlm.get m).seq = false → s.mgmtOn = true →
     exec (.cfgWr m ⟨hd, false⟩ v) s =
       .next ((s.updHlm m fun h => cfgTaken h hd (some v) s.now).access (cfgAccess s m hd (some v)))) ∧
   (∀ (m : Mod) (hd : ReqHdr) (s : State), Arrives s m (reqMsg 0x28 hd 0) →
     (s.hlm.get m).fenced hd.port = true →
     ∃ h, exec (.cfgRd m ⟨hd, false⟩) s = .next (s.updHlm m fun _ => h) ∧ h.txq = (s.hlm.get m).txq ∧
       ∃ c, h.cfgq = (s.hlm.get m).cfgq ++ [c] ∧ c.started = false ∧ c.held = true ∧ c.port = hd.port ∧ c.tag = hd.tag)) ∧
  ((∀ (m : Mod) (hd : ReqHdr) (w : Word) (s : State), Arrives s m (reqMsg 0x28 hd 0) → CfgFree s m hd →
     plainOff (hd.addr.extractLsb' 0 24).toNat = true → s.regOff (hd.addr.extractLsb' 0 24).toNat = false →
     (s.updHlm m fun h => cfgTaken h hd none s.now).peek (hd.addr.extractLsb' 0 24).toNat = some w →
     exec (.cfgRd m ⟨hd, false⟩) s = .next (s.updHlm m fun h => { cfgTaken h hd none s.now with
       txq := h.txq ++ [{ outMsg 0x06 hd.port hd.tag with aux := w, credit := .ctrl }] })) ∧
   (∀ (m : Mod) (hd : ReqHdr) (v r : Word) (s t : State), Arrives s m (reqMsg 0x29 hd (v.setWidth 576)) → CfgFree s m hd →
     (s.updHlm m fun h => cfgTaken h hd (some v) s.now).performOrdered (cfgAccess s m hd (some v)) = (.ok r, t) →
     (t.hlm.get m).cfgq = (cfgTaken (s.hlm.get m) hd (some v) s.now).cfgq →
     exec (.cfgWr m ⟨hd, false⟩ v) s = .next (t.queueOut m { outMsg 0x02 hd.port hd.tag with credit := .ctrl })) ∧
   (∀ (m : Mod) (hd : ReqHdr) (v : Word) (s : State), Arrives s m (reqMsg 0x29 hd (v.setWidth 576)) → CfgFree s m hd →
     hd.addr.extractLsb' 0 24 = 0x200 → s.map.frozen = false → v.extractLsb' 0 2 ≠ 3 → s.mgmt.cycleWr = [] →
     ∃ t, exec (.cfgWr m ⟨hd, false⟩ v) s = .next t ∧
       t.map = { s.map with gran := v.extractLsb' 0 2, xorCh := v.getLsbD 3, xorBank := v.getLsbD 4 } ∧
       t.hlm = upd s.hlm m (fun h => { cfgTaken h hd (some v) s.now with
         txq := h.txq ++ [{ outMsg 0x02 hd.port hd.tag with credit := .ctrl }] }) ∧
       t.chan = s.chan ∧ t.port = s.port ∧ t.dram = s.dram ∧ t.pwr = s.pwr)) ∧
  (∀ (m : Mod) (c : CfgReq) (a : Access) (s : State), a.org = .inband m c.seq →
     (∀ t, (s.performOrdered a).2 = t → (t.hlm.get m).cfgq.find? (fun q => q.seq == c.seq && q.started) = some c) →
     (∀ v, (s.performOrdered a).1 = .ok v → c.write = false → s.access a = (s.performOrdered a).2.queueOut m
       { outMsg 0x06 c.port c.tag with aux := v, credit := .ctrl }) ∧
     (∀ v, (s.performOrdered a).1 = .ok v → c.write = true → s.access a = (s.performOrdered a).2.queueOut m
       { outMsg 0x02 c.port c.tag with credit := .ctrl }) ∧
     (∀ e, (s.performOrdered a).1 = .err e → s.access a = ((s.performOrdered a).2.queueOut m
       { outMsg 0x08 c.port c.tag with status := e, aux := c.off.setWidth 32 }).updHlm m fun h =>
         { h with dueCtrl := h.dueCtrl + 1 }))

/-- What the fabric checks, in order: alignment, firmware ranges, unassigned offsets, ownership. A read of an ordinary
register whose domain is powered gives its word and changes nothing, and one whose domain is off changes nothing but
the count of free values. In the firmware range of a block a write of any identity but firmware is denied, but for the
index words of the debug windows, which the debug class writes too, and their data words, which nobody writes. A
mailbox register is denied to all but its owner and firmware, and a write to a read-only register changes nothing.
Clauses that rest on the model's choices follow log entries 13, 40 and 62. -/
def Obligations.AccessChecks : Prop :=
  ∀ (a : Access) (s : State),
    (a.off.toNat % 4 ≠ 0 → s.perform a = (.err errMISALIGN, s)) ∧
    (a.off.toNat % 4 = 0 → 0xF00000 ≤ a.off.toNat → a.who ≠ fwIdent → s.perform a = (.err errDENIED, s)) ∧
    (plainOff a.off.toNat = true → s.peek a.off.toNat = none → s.perform a = (.err errADDR, s)) ∧
    (∀ w, s.peek a.off.toNat = some w → plainOff a.off.toNat = true → a.wr = none → s.regOff a.off.toNat = false →
      s.perform a = (.ok w, s)) ∧
    (∀ w, s.peek a.off.toNat = some w → plainOff a.off.toNat = true → a.wr = none → s.regOff a.off.toNat = true →
      s.perform a = (.ok (Config.freeBits 32 s.clk.freeCtr), s.updClk fun k => { k with freeCtr := k.freeCtr + 1 })) ∧
    ((s.peek a.off.toNat).isSome = true → plainOff a.off.toNat = true → 0x100000 ≤ a.off.toNat →
      a.off.toNat < 0x300000 → a.wr.isSome = true → s.regOff a.off.toNat = true →
      s.perform a = (.ok 0, s) ∨ s.perform a = (.err errBADFLD, s)) ∧
    (a.off.toNat % 4 = 0 → a.off.toNat < 0x800000 → isFwRange a.off.toNat = true → a.who ≠ fwIdent → a.wr.isSome = true →
      isDbgData a.off.toNat = false → (identClass a.who ≠ 2 ∨ isDbgIdx a.off.toNat = false) → s.perform a = (.err errDENIED, s)) ∧
    (a.off.toNat % 4 = 0 → isDbgData a.off.toNat = true → a.wr.isSome = true → s.perform a = (.ok 0, s)) ∧
    (∀ x, mbOf a.off.toNat = some x → a.off.toNat % 4 = 0 → (s.mb x.1).owner ≠ some a.who → a.who ≠ fwIdent →
      s.perform a = (.err errDENIED, s)) ∧
    (a.off.toNat = 0x0 ∨ a.off.toNat = 0x4 ∨ a.off.toNat = 0x10 ∨ a.off.toNat = 0x204 → a.wr.isSome = true →
      s.perform a = (.ok 0, s))

/-- The write of PORTk_CTRL, while its module is powered, by each of the commands that reach it: class, enable, change
mode; rates asked for; mark cleared. The reserved change mode is refused and nothing changes. The answer stands in
`lastAcc` (log entry 13). GLB_MAP_CFG: written while it is not frozen, refused with DENIED while it is, and with
BADFLD for the reserved granule; a write changes nothing else. The answer stands in `lastAcc` (log entry 13). A
retrain of a module by a register row starts its link reset at once, with the rate and threshold that the same write
sets, whatever identity the row names. Clauses that rest on the model's choices follow log entries 13 and 40. -/
def Obligations.ConfigWrites : Prop :=
  (∀ (i : Instr) (who : Ident) (k : PortK) (v : Word) (s : State),
     (i = .portClassChange who k v ∨ i = .applyRates who k v ∨ i = .hwmClr who k v) → s.mgmtOn = true →
     s.modOn (portMod (BitVec.ofNat 9 k.val)) = true →
     (v.extractLsb' 8 2 ≠ 3 → exec i s = .next (answered (s.updPort k fun p =>
       { p with cls := v.extractLsb' 0 4,
                clsFrom := if v.extractLsb' 0 4 = p.cls then p.clsFrom
                  else (s.hlm.get (portMod (BitVec.ofNat 9 k.val))).seq,
                en := v.getLsbD 4, chgMode := v.extractLsb' 8 2, applyPend := p.applyPend || v.getLsbD 16,
                hwmLat := if v.getLsbD 17 then sampleKept p.latIn s.now else p.hwmLat }) (.ok 0))) ∧
     (v.extractLsb' 8 2 = 3 → exec i s = .next (answered s (.err errBADFLD)))) ∧
  (∀ (who : Ident) (v : Word) (s : State), s.mgmtOn = true →
     (s.map.frozen = true → exec (.mapCfgWrite who v) s = .next (answered s (.err errDENIED))) ∧
     (s.map.frozen = false → v.extractLsb' 0 2 = 3 → exec (.mapCfgWrite who v) s = .next (answered s (.err errBADFLD))) ∧
     (s.map.frozen = false → v.extractLsb' 0 2 ≠ 3 → exec (.mapCfgWrite who v) s = .next (answered (s.updMap fun m =>
       { m with gran := v.extractLsb' 0 2, xorCh := v.getLsbD 3, xorBank := v.getLsbD 4 }) (.ok 0)))) ∧
  (∀ (who : Ident) (m : Mod) (v : Word) (s : State), s.mgmtOn = true → s.canReset m = true → s.modOn m = true →
     v.getLsbD 8 = true → v.getLsbD 1 = false →
     ∃ t, exec (.retrain who m v) s = .next t ∧ (t.hlm.get m).link = .reset ∧
       (t.hlm.get m).retryThresh = v.extractLsb' 16 8 ∧ (t.hlm.get m).maxRate = v.extractLsb' 0 2 ∧
       ((s.hlm.get m).flit.inbox = [] → (t.hlm.get m).tags = []) ∧ (∀ k, k ≠ m → t.hlm.get k = s.hlm.get k) ∧
       t.port = s.port ∧ t.dram = s.dram)

/-- A write through a bit alias of an ordinary register is a write of that register's word with the one bit changed;
one to a semaphore or a mailbox register, or to LOG_POP, is refused with DENIED. So bit 3 of GLB_MAP_CFG is written
alone, while it is not frozen. -/
def Obligations.AliasWritesOneBit : Prop :=
  ∀ (who : Ident) (a : BitVec 24) (v : Word) (s : State), s.mgmtOn = true → a.toNat % 4 = 0 → 0x800000 ≤ a.toNat →
    a.toNat < 0xA00000 →
    (∀ w, s.peek (aliasOf a.toNat).1 = some w → plainOff (aliasOf a.toNat).1 = true →
      exec (.aliasWrite who a v) s = exec (.registerWrite who (.off (BitVec.ofNat 24 (aliasOf a.toNat).1))
        (if v.getLsbD 0 then w ||| BitVec.twoPow 32 (aliasOf a.toNat).2
         else w &&& ~~~(BitVec.twoPow 32 (aliasOf a.toNat).2))) s) ∧
    ((mbOf (aliasOf a.toNat).1).isSome = true ∨ (semOf (aliasOf a.toNat).1).isSome = true ∨ (aliasOf a.toNat).1 = 0x2000 →
      exec (.aliasWrite who a v) s = .next (answered s (.err errDENIED))) ∧
    (aliasOf a.toNat = (0x200, 3) → s.map.frozen = false → s.map.gran ≠ 3 →
      exec (.aliasWrite who a v) s = .next (answered (s.updMap fun m => { m with xorCh := v.getLsbD 0 }) (.ok 0)))

/-- R356: a read of a free semaphore returns 0 and makes the reader its owner; of a held one it returns 0x800 with the
owner and changes nothing; the owner's or firmware's write of that value frees it; every other write is refused with
DENIED and changes nothing. -/
def Obligations.Semaphores : Prop :=
  ∀ (who : Ident) (i : SemIx) (v : Word) (s : State), s.mgmtOn = true →
    (s.mgmt.sem.get i = none →
      exec (.semRead who i) s =
        .next (answered (s.updMgmt fun g => { g with sem := upd g.sem i fun _ => some who }) (.ok 0)) ∧
      exec (.semWrite who i v) s = .next (answered s (.err errDENIED))) ∧
    ∀ w, s.mgmt.sem.get i = some w →
      exec (.semRead who i) s = .next (answered s (.ok (0x800 ||| w.setWidth 32))) ∧
      ((who = w ∨ who = fwIdent) → v = 0x800 ||| w.setWidth 32 →
        exec (.semWrite who i v) s =
          .next (answered (s.updMgmt fun g => { g with sem := upd g.sem i fun _ => none }) (.ok 0))) ∧
      (¬ ((who = w ∨ who = fwIdent) ∧ v = 0x800 ||| w.setWidth 32) →
        exec (.semWrite who i v) s = .next (answered s (.err errDENIED)))

/-- A register write at an offset is one access of the fabric. A firmware field is written by firmware alone, where
the domain that holds it is powered, and keeps its value where the value written lies outside its range: so for every
field that firmware has. Fields of a lane, a spare or a cap wait for the event that takes them up. A posted write
takes effect in its domain and its busy flag clears. Clauses that rest on the model's choices follow log entries 13,
36, 65, 69 and 71. -/
def Obligations.RegisterWrites : Prop :=
  (∀ (who : Ident) (o : BitVec 24) (v : Word) (s : State), s.mgmtOn = true →
    exec (.registerWrite who (.off o) v) s = .next (s.access { who := who, org := .direct, off := o, wr := some v })) ∧
  (∀ (who : Ident) (r : FwReg) (v : Word) (s : State), s.mgmtOn = true → who ≠ fwIdent →
    exec (.registerWrite who (.fw r) v) s = .next (answered s (.err errDENIED))) ∧
  (∀ (r : FwReg) (n : Ch) (v : Word) (s : State), fwAwake s → fwRegCh r = some n → s.quadOn n = false → fwWrites v s r s) ∧
  (∀ (n : Ch) (v : Word) (s : State), fwReaches s n →
    fwWrites v s (.refMode n) (s.updChan n fun c => { c with cfg := { c.cfg with refAllBank := v.getLsbD 0 } }) ∧
    fwWrites v s (.rateMin n) (if v.toNat ≤ 2 then
      s.updChan n fun c => { c with cfg := { c.cfg with rateMin := v.extractLsb' 0 2 } } else s) ∧
    fwWrites v s (.distThresh n) (if 256 ≤ v.toNat ∧ v.toNat ≤ 2048 then
      s.updChan n fun c => { c with cfg := { c.cfg with thresh := v.extractLsb' 0 12 } } else s) ∧
    fwWrites v s (.distPace n) (if v.toNat = 0 ∨ (s.tim (s.map.server n)).tRCck ≤ 2 * v.toNat ∧ v.toNat ≤ 255 then
      s.updChan n fun c => { c with cfg := { c.cfg with pace := v.extractLsb' 0 8 } } else s) ∧
    fwWrites v s (.recalEn n) (s.updChan n fun c => { c with cfg := { c.cfg with recalEn := v.getLsbD 0 } }) ∧
    fwWrites v s (.marginBoot n) (s.updChan n fun c => { c with cfg := { c.cfg with bootMin := v.toNat } }) ∧
    fwWrites v s (.marginWarn n) (s.updChan n fun c => { c with cfg := { c.cfg with warn := v.toNat } }) ∧
    fwWrites v s (.marginFail n) (s.updChan n fun c => { c with cfg := { c.cfg with fail := v.toNat } }) ∧
    fwWrites v s (.monThresh n) (s.updChan n fun c => { c with cfg := { c.cfg with monThresh := v.toNat } }) ∧
    fwWrites v s (.trainCtrl n) (if v.getLsbD 0 = true ∧ s.boot.ph = .cold 11 then s.t1 n else s)) ∧
  (∀ (n : Ch) (p : Pc) (i : Fin 38) (j : Fin 20) (v : Word) (s : State), fwReaches s n →
    fwWrites v s (.rxTap n p i) (s.updChan n fun c => c.updPc p fun g =>
      { g with lanes := upd g.lanes i fun l => { l with selRx := some (v.extractLsb' 0 6) } }) ∧
    fwWrites v s (.rxSampler n p i) (s.updChan n fun c => c.updPc p fun g =>
      { g with lanes := upd g.lanes i fun l => { l with selSampler := some (v.getLsbD 0) } }) ∧
    fwWrites v s (.txTap n p i) (s.updChan n fun c => c.updPc p fun g =>
      { g with lanes := upd g.lanes i fun l => { l with selTx := some (v.extractLsb' 0 6) } }) ∧
    fwWrites v s (.cmdTap n j) (s.updChan n fun c =>
      { c with cmdLane := upd c.cmdLane j fun l => { l with selTx := some (v.extractLsb' 0 6) } }) ∧
    fwWrites v s (.beatAlign n p) (if s.boot.ph = .cold 11 then
      s.updChan n fun c => c.updPc p fun g => { g with align := v.extractLsb' 0 6 } else s)) ∧
  (∀ (n : Ch) (p : Pc) (i j : Fin 2) (v : Word) (s : State), fwReaches s n → i = Fin.ofNat 2 (v.toNat / 64) →
    j = Fin.ofNat 2 (v.toNat / 32) →
    fwWrites v s (.spareSel n p) (if v.toNat % 64 < 36 ∧ (((s.chan.get n).pc.get p).spares.get i).en = false ∧
        (((s.chan.get n).pc.get p).spares.get i).failed = false then
      s.updChan n fun c => c.updPc p fun g => { g with sel := some (i, Fin.ofNat 36 (v.toNat % 64)) } else s) ∧
    fwWrites v s (.spareCmd n) (if v.toNat % 32 < 18 ∧ ((s.chan.get n).csp.get j).en = false ∧
        ((s.chan.get n).csp.get j).failed = false then
      s.updChan n fun c => { c with selCmd := some (j, Fin.ofNat 18 (v.toNat % 32)) } else s)) ∧
  (∀ (n : Ch) (q : Option Pc) (v : Word) (s : State), fwReaches s n →
    (v.toNat % 4 = 0 → fwWrites v s (.urgentPause n) s) ∧
    (v.toNat % 4 = (match q with | none => 3 | some p => p.val + 1) → fwWrites v s (.urgentPause n) (s.updFw fun f =>
      { f with urgent := waitPause f.urgent { n := s.map.server n, pc := q, sched := false } }))) ∧
  (∀ (n : Ch) (p : Pc) (lane : Fin 36) (v : Word) (s : State), fwReaches s n →
    (v.getLsbD 0 = ((s.chan.get n).pc.get p).marks.getLsbD lane.val → fwWrites v s (.eraseSet n p lane) s) ∧
    (v.getLsbD 0 = false → ((s.chan.get n).pc.get p).marks.getLsbD lane.val = true →
      fwWrites v s (.eraseSet n p lane) (if ((s.chan.get n).pc.get p).requal = none ∧
          4 ≤ (((s.chan.get n).pc.get p).lanes.get (Fin.ofNat 38 lane.val)).goodPauses ∧
          ∀ x ∈ ((s.chan.get n).pc.get p).spares.toList, x.en = true → x.lane.toNat ≠ lane.val then
        s.updChan n fun c => c.updPc p fun g => { g with requal := some lane, requalNext := 0, requalWait := [] } else s)) ∧
    (v.getLsbD 0 = true → ((s.chan.get n).pc.get p).marks.getLsbD lane.val = false → s.markRoom n p = true →
      ∃ t, exec (.registerWrite fwIdent (.fw (.eraseSet n p lane)) v) s = .next t ∧
        ((t.chan.get n).pc.get p).marks = ((s.chan.get n).pc.get p).marks ||| BitVec.twoPow 36 lane.val ∧
        (t.chan.get n).st = (s.chan.get n).st ∧ t.hlm = s.hlm ∧ t.port = s.port ∧ t.dram = s.dram)) ∧
  (∀ (n : Ch) (i : Fin 27) (v : Word) (s : State), fwReaches s n →
    ∃ t, exec (.registerWrite fwIdent (.fw (.tim n i)) v) s = .next t ∧
      (t.chan.get n).tim = ⟨upd (s.chan.get n).tim.v i fun _ => v.toNat⟩ ∧ (t.chan.get n).cfg = (s.chan.get n).cfg ∧
      (t.chan.get n).st.tt = (s.chan.get n).st.tt ∧ (∀ k, k ≠ n → t.chan.get k = s.chan.get k) ∧ t.hlm = s.hlm ∧
      t.port = s.port ∧ t.dram = s.dram) ∧
  (∀ (n : Ch) (v : Word) (s : State), fwReaches s n →
    ((s.chan.get (s.map.server n)).repairHolds = true →
      fwWrites v s (.zciSelfRefresh n) s ∧ fwWrites v s (.zciPowerDown n) s) ∧
    ((s.chan.get (s.map.server n)).repairHolds = false →
      fwWrites v s (.zciSelfRefresh n) (if v.getLsbD 0 then s.enterSr n (some (s.chanMult n)) else s.exitSr n) ∧
      fwWrites v s (.zciPowerDown n) (if v.getLsbD 0 then (s.preabAll (s.map.server n)).enterPd n
        else if (s.chan.get (s.map.server n)).st.pwr = .powerDown then s.exitPd n else s))) ∧
  (∀ (n : Ch) (p : Pc) (sid : SidIx) (v : Word) (s : State), fwReaches s n →
    s.zciReady (s.map.server n) (bankSid (firstBank p sid)) = false →
    fwWrites v s (.zciPreab n p sid) s ∧ fwWrites v s (.zciRefab n p sid) s) ∧
  (∀ (n : Ch) (p : Pc) (sid : SidIx) (x : BitVec 8) (v : Word) (s : State), fwReaches s n →
    fwWrites v s (.mrw n sid x) (s.askMr (s.map.server n) { sid := sid, addr := x, act := .inl (v.extractLsb' 0 8) }) ∧
    fwWrites v s (.mrr n sid p x) (s.askMr (s.map.server n) { sid := sid, addr := x, act := .inr p })) ∧
  (∀ (n : Ch) (col : BitVec 4) (i : Fin 16) (hard : Bool) (a : ScrubArgs) (v : Word) (s : State), fwReaches s n →
    fwWrites v s (.remapInstall n col) (s.fwInstall n { recLoc v 0 with col := col }) ∧
    fwWrites v s (.remapRelease n i) (s.fwRelease n i) ∧
    fwWrites v s (.pprStart n hard) (s.fwRepair n hard (recLoc v 0)) ∧
    fwWrites v s (.scrubShare n a) (s.fwShare n a)) ∧
  (∀ (v : Word) (s : State), fwAwake s →
    (v.extractLsb' 0 2 ≠ 0 ∨ s.pwr.state ≠ .chrysMgmt → fwWrites v s .pwrMode
      (if v.extractLsb' 0 2 = 3 then s else s.updPwr fun p => { p with target := v.extractLsb' 0 2 })) ∧
    fwWrites v s .pwrQuiet (if 1000 ≤ v.toNat ∧ v.toNat ≤ 1000000 then s.updPwr fun p => { p with quiet := v.toNat } else s) ∧
    fwWrites v s .pwrDeferMax (if 1000000 ≤ v.toNat ∧ v.toNat ≤ 1000000000 then
      s.updPwr fun p => { p with deferMax := v.toNat } else s) ∧
    fwWrites v s .eyePeriod (if 1 ≤ v.toNat ∧ v.toNat ≤ 64 then
      s.updPwr fun p => { p with eye := { p.eye with period := v.toNat } } else s) ∧
    fwWrites v s .eyeWakeHi (s.updPwr fun p => { p with eye := { p.eye with wakeHi := v.extractLsb' 0 8 } }) ∧
    fwWrites v s .thermCap (if v.toNat ≤ 64 then s.broadcast v.toNat else s) ∧
    fwWrites v s .thermWarn (if 60 ≤ v.toNat ∧ v.toNat ≤ 90 ∧ v.toNat + 5 ≤ s.mgmt.therm.throttle.toNat then
      s.updTherm fun t => { t with warn := v.extractLsb' 0 8 } else s) ∧
    fwWrites v s .thermThrottle (if 65 ≤ v.toNat ∧ v.toNat ≤ 95 ∧ s.mgmt.therm.warn.toNat + 5 ≤ v.toNat then
      s.updTherm fun t => { t with throttle := v.extractLsb' 0 8 } else s) ∧
    fwWrites v s .critCap (if v.toNat ≤ 32 then s.updTherm fun t => { t with critCap := v.extractLsb' 0 6 } else s) ∧
    fwWrites v s .thermFloor (if v.toNat ≤ 64 then s.updTherm fun t => { t with floor := v.extractLsb' 0 7 } else s) ∧
    (s.mgmt.therm.budget ≤ 0 ∨ 0 < v.toNat → fwWrites v s .thermBmax (if v.toNat ≤ 65535 then s.updTherm fun t =>
      { t with bMax := v.extractLsb' 0 16, budget := min t.budget v.toNat } else s)) ∧
    fwWrites v s (.thermState 0) (s.updTherm fun t => { t with td := (v.toInt : Rat) / 1000 }) ∧
    fwWrites v s (.thermState 1) (s.updTherm fun t => { t with ts := (v.toInt : Rat) / 1000 }) ∧
    fwWrites v s (.thermState 2) (s.updTherm fun t => { t with tamb := (v.toInt : Rat) / 1000 }) ∧
    fwWrites v s .i3cStatic (s.updMgmt fun g => { g with i3cStatic := v.extractLsb' 0 7 }) ∧
    fwWrites v s .wdtPeriod (s.updFw fun f => { f with wdtPeriod := v.toNat, wdtServed := s.now }) ∧
    fwWrites v s .wdtService (s.updFw fun f => { f with wdtServed := s.now })) ∧
  (∀ (e : Ev) (t : Fin 4) (m : Mod) (i : Fin 63) (j : Fin 7) (v : Word) (s : State), fwAwake s →
    fwWrites v s (.logMask e) (s.updLog fun l =>
      { l with mask := if v.getLsbD 0 then l.mask ||| BitVec.twoPow 360 e.val else l.mask &&& ~~~(BitVec.twoPow 360 e.val) }) ∧
    fwWrites v s (.i3cIbiEnable t) (if v.getLsbD 0 then s.i3cIbiEnabled t
      else s.updI3c t fun x => { x with ibiOn := false, ibiq := [], ibi := none }) ∧
    fwWrites v s (.i3cProvId t true) (s.updI3c t fun x =>
      { x with provId := v.extractLsb' 0 16 ++ x.provId.extractLsb' 0 32 }) ∧
    fwWrites v s (.i3cProvId t false) (s.updI3c t fun x => { x with provId := x.provId.extractLsb' 32 16 ++ v }) ∧
    fwWrites v s (.hlmTrim m i) (if 8 ≤ i.val ∧ Config.trimUnit i.val = m.val then
      s.updFuse fun f => { f with trims := upd f.trims i fun _ => some v } else s) ∧
    fwWrites v s (.linkFw m) (s.updHlm m fun h => { h with linkFw := v }) ∧
    fwWrites v s (.thermParam j) (if j.val < 2 ∧ v.toNat = 0 then s
      else s.updTherm fun t => { t with model := upd t.model j fun _ => some v.toNat })) ∧
  (∀ (d : Fin 39) (v : Word) (s : State), fwAwake s →
    (d.val < 2 → fwWrites v s (.seqSwitch d) s) ∧
    (2 ≤ d.val → v.getLsbD 0 = true → fwWrites v s (.seqSwitch d) (if s.pwr.dom.get d = 0 then
      s.updPwr fun p => { p with seqOn := p.seqOn ||| BitVec.twoPow 39 d.val, upAt := s.now } else s)) ∧
    (2 ≤ d.val → v.getLsbD 0 = false → fwWrites v s (.seqSwitch d)
      ((s.updPwr fun p => { p with seqOn := p.seqOn &&& ~~~(BitVec.twoPow 39 d.val) }).offDom d))) ∧
  (∀ (r : Fin 8) (i : Fin 1024) (v : Word) (s : State), fwAwake s → (r ≠ 0 ∨ 8 ≤ i.val) →
    fwWrites v s (.fuseShadow r i false) (s.updFuse fun f =>
      { f with shadows := f.shadows.filter fun x => decide (¬ (x.1 = r.val ∧ x.2.1 = i.val)) }) ∧
    ((s.mgmt.fuse.shadows.filter fun x => decide (¬ (x.1 = r.val ∧ x.2.1 = i.val))).length < 32 →
      fwWrites v s (.fuseShadow r i true) (s.updFuse fun f => { f with
        shadows := (f.shadows.filter fun x => decide (¬ (x.1 = r.val ∧ x.2.1 = i.val))) ++ [(r.val, i.val, v)] }))) ∧
  (∀ (o : BitVec 24) (v : Word) (s : State), s.boot.ph ≠ .warm 1 → s.mgmt.postAon.pend = some (o, v) →
    exec (.postedWriteEffect .aon) s = .next ((s.updPwr fun p => { p with patEn := v.extractLsb' 0 20 }).updMgmt fun g =>
      { g with postAon := { g.postAon with pend := none } })) ∧
  (∀ (n : Ch) (o : BitVec 24) (v : Word) (s : State), s.boot.ph ≠ .warm 1 →
    (s.mgmt.postTsv.get n).pend = some (o, v) → s.quadOn n = true →
    exec (.postedWriteEffect (.tsv n)) s = .next ((s.updChan n fun c => { c with laneIdx := v.extractLsb' 0 8 }).updMgmt
      fun g => { g with postTsv := upd g.postTsv n fun p => { p with pend := none } }))

/-- R400, R357, R407: accesses that reach the fabric in one MC cycle. Writes to one register, by identities of
different places in the order, leave the value of the last in it, whatever the order in which they are named: of a
plain register firmware's stays over any other, and sideband's over in-band's. Reads see what the writes left. Of two
reads of a free semaphore firmware's acquires, and a release goes before the reads. A register bit written through an
alias and the whole register meet in the same order. Clauses that rest on the model's choices follow log entry 1. -/
def Obligations.OneMcCycle : Prop :=
  (∀ (who : Ident) (o : BitVec 24) (l : List TiedAcc) (v : Word) (s : State), s.mgmtOn = true →
    ∃ t, exec (.registerWrite who (.tied o l) v) s = .next t ∧ t.mgmt.tied.length = l.length + 1) ∧
  (∀ (who a : Ident) (v w x : Word) (s : State), s.mgmtOn = true → writeRank who ≠ writeRank a →
    v.extractLsb' 0 2 ≠ 3 → w.extractLsb' 0 2 ≠ 3 → s.map.frozen = false →
    x = (if writeRank who < writeRank a then w else v) →
    ∃ t, exec (.registerWrite who (.tied 0x200 [⟨a, 0x200, some w⟩]) v) s = .next t ∧
      t.map = { s.map with gran := x.extractLsb' 0 2, xorCh := x.getLsbD 3, xorBank := x.getLsbD 4 } ∧
      t.chan = s.chan ∧ t.hlm = s.hlm ∧ t.port = s.port ∧ t.dram = s.dram) ∧
  (∀ (who a : Ident) (v y : Word) (b : Bool) (s : State), s.mgmtOn = true → s.map.frozen = false → s.map.gran ≠ 3 →
    v.extractLsb' 0 2 ≠ 3 → writeRank who ≠ writeRank a → y.getLsbD 0 = b →
    ∃ t, exec (.registerWrite who (.tied 0x200 [⟨a, 0x80400C, some y⟩]) v) s = .next t ∧
      t.map = { s.map with gran := v.extractLsb' 0 2, xorBank := v.getLsbD 4,
                           xorCh := if writeRank who < writeRank a then b else v.getLsbD 3 }) ∧
  (∀ (i : SemIx) (who a : Ident) (v : Word) (o : BitVec 24) (s : State), s.mgmtOn = true → s.mgmt.sem.get i = none →
    o = BitVec.ofNat 24 (0xC00 + 4 * i.val) → writeRank who < writeRank a →
    ∃ t, exec (.registerWrite fwIdent (.tied 0 [⟨who, o, none⟩, ⟨a, o, none⟩]) v) s = .next t ∧
      t.mgmt.sem.get i = some a ∧ (⟨a, o, none⟩, .ok 0) ∈ t.mgmt.tied ∧
      (⟨who, o, none⟩, .ok (0x800 ||| a.setWidth 32)) ∈ t.mgmt.tied) ∧
  (∀ (i : SemIx) (who a : Ident) (o : BitVec 24) (s : State), s.mgmtOn = true → s.mgmt.sem.get i = some who →
    o = BitVec.ofNat 24 (0xC00 + 4 * i.val) →
    ∃ t, exec (.registerWrite who (.tied o [⟨a, o, none⟩]) (0x800 ||| who.setWidth 32)) s = .next t ∧
      t.mgmt.sem.get i = some a ∧ (⟨a, o, none⟩, .ok 0) ∈ t.mgmt.tied)

/-- An occurrence that reaches the event controller is counted, unless 65,535 are unacknowledged, when it is reported
as lost; it queues a log packet where its mask bit is set, and an EVENT message where it is routed to one and no
holdoff runs. A write of an event's acknowledgement is performed where it covers occurrences that have been counted,
and refused with BADFLD otherwise. At the end of a holdoff a message goes out if the count has changed since the last
one, and none if it has not. Clauses that rest on the model's choices follow log entry 2. -/
def Obligations.Events : Prop :=
  (∀ (e : Ev) (o : Occ) (s : State), s.mgmt.occq.find? (·.e == e) = some o → s.mgmtOn = true →
     (s.mgmt.ev.get e).ibiEn = false → s.mgmt.log.hq.length < 16 →
     ∃ t, exec (.eventOccurrence e) s = .next t ∧ t.mgmt.occq = s.mgmt.occq.eraseP (·.e == e) ∧
       (t.mgmt.ev.get e).ack = (s.mgmt.ev.get e).ack ∧
       ((s.mgmt.ev.get e).occ - (s.mgmt.ev.get e).ack ≠ 0xFFFF →
         (t.mgmt.ev.get e).occ = (s.mgmt.ev.get e).occ + 1 ∧ t.mgmt.evLost = s.mgmt.evLost) ∧
       ((s.mgmt.ev.get e).occ - (s.mgmt.ev.get e).ack = 0xFFFF →
         (t.mgmt.ev.get e).occ = (s.mgmt.ev.get e).occ ∧ t.mgmt.evLost = satInc s.mgmt.evLost ∧
         t.mgmt.evLostLast = BitVec.ofNat 9 e.val) ∧
       t.mgmt.log.hq = s.mgmt.log.hq ++
         (if s.mgmt.log.mask.getLsbD e.val then [eventPkt o (t.mgmt.ev.get e).occ] else []) ∧
       ((s.mgmt.ev.get e).msgEn = true → inHoldoff (s.mgmt.ev.get e).holdoff (s.mgmt.ev.get e).lastMsg s.now = false →
         (s.hlm.get (s.mgmt.ev.get e).module).link = .active →
         (∀ q ∈ (s.hlm.get (s.mgmt.ev.get e).module).evq, q.e ≠ e) →
         (t.hlm.get (s.mgmt.ev.get e).module).evq =
           (s.hlm.get (s.mgmt.ev.get e).module).evq ++ [{ e := e, port := (s.mgmt.ev.get e).port }]) ∧
       (∀ k, k ≠ e → t.mgmt.ev.get k = s.mgmt.ev.get k) ∧ t.chan = s.chan ∧ t.port = s.port ∧ t.dram = s.dram) ∧
  (∀ (who : Ident) (e : Ev) (v : Word) (s : State), s.mgmtOn = true →
     ((v.extractLsb' 0 16 - (s.mgmt.ev.get e).ack).toNat ≤ ((s.mgmt.ev.get e).occ - (s.mgmt.ev.get e).ack).toNat →
       exec (.eventAck who e v) s = .next (answered (s.updMgmt fun g =>
         { g with ev := upd g.ev e fun x => { x with ack := v.extractLsb' 0 16 } }) (.ok 0))) ∧
     (((s.mgmt.ev.get e).occ - (s.mgmt.ev.get e).ack).toNat < (v.extractLsb' 0 16 - (s.mgmt.ev.get e).ack).toNat →
       exec (.eventAck who e v) s = .next (answered s (.err errBADFLD)))) ∧
  (∀ (e : Ev) (at_ : Nat) (o : BitVec 16) (s : State), (s.mgmt.ev.get e).holdoff ≠ 0 →
     (s.mgmt.ev.get e).lastMsg = some (at_, o) → (s.mgmt.ev.get e).lastIbi = none → (s.mgmt.ev.get e).msgEn = true →
     s.mgmtOn = true →
     ((s.mgmt.ev.get e).occ = o → exec (.eventHoldoffExpiry e) s =
       .next (s.advance (at_ + 2 ^ (s.mgmt.ev.get e).holdoff.toNat * 1000))) ∧
     ((s.mgmt.ev.get e).occ ≠ o → (s.hlm.get (s.mgmt.ev.get e).module).link = .active →
       (∀ q ∈ (s.hlm.get (s.mgmt.ev.get e).module).evq, q.e ≠ e) →
       ∃ t, exec (.eventHoldoffExpiry e) s = .next t ∧
         (t.hlm.get (s.mgmt.ev.get e).module).evq =
           (s.hlm.get (s.mgmt.ev.get e).module).evq ++ [{ e := e, port := (s.mgmt.ev.get e).port }] ∧
         t.clk.now = max s.clk.now (at_ + 2 ^ (s.mgmt.ev.get e).holdoff.toNat * 1000) ∧ t.chan = s.chan ∧ t.port = s.port))

/-- A virtual target raises one interrupt at a time: when interrupts are enabled for it, and after a NACK, it raises
one for every event routed to it whose status is 1, in the order of their latest occurrences, and none where there is
none; the interrupt carries 0x1E, the event number and the count, low bytes first, and starts the event's holdoff.
Clauses that rest on the model's choices follow log entries 4 and 20. The sideband, where no interrupt is raised on
its target: a private write of 7 bytes and one of 3 bytes before a read are one access each; the read of an ordinary
register in a powered domain returns status 0 and its word; a write leaves its status; other lengths leave status
BADFLD; a status read returns the last status; a read that waits is NACKed until it completes, and its retry returns
the bytes. Clauses that rest on the model's choices follow log entries 20 and 41. -/
def Obligations.InterruptsAndSideband : Prop :=
  ((∀ (e : Ev) (occ : BitVec 16), (ibiPayload e occ).extractLsb' 0 8 = 0x1E ∧
     (ibiPayload e occ).extractLsb' 8 16 = BitVec.ofNat 16 e.val ∧ (ibiPayload e occ).extractLsb' 24 16 = occ) ∧
   (∀ (t : Fin 4) (e : Ev) (r : List Ev) (s : State),
     (∀ k, k ∈ e :: r ↔ (s.mgmt.ev.get k).ibiEn = true ∧ (s.mgmt.ev.get k).ibiTgt = t ∧
       (s.mgmt.ev.get k).occ ≠ (s.mgmt.ev.get k).ack) →
     (e :: r).Pairwise (fun a b => (s.mgmt.ev.get a).occAt < (s.mgmt.ev.get b).occAt ∨
       (s.mgmt.ev.get a).occAt = (s.mgmt.ev.get b).occAt ∧ a < b) → s.mgmtOn = true →
     (exec (.i3cIbiEnabled t) s = .next (((s.updClk fun k => { k with freeCtr := k.freeCtr + 1 }).updI3c t fun x => { x with
       ibiOn := true, dynAddr := some (x.dynAddr.getD (Config.freeBits 7 s.clk.freeCtr)),
       ibi := some (ibiPayload e (s.mgmt.ev.get e).occ), ibiq := r }).updEv e fun x =>
         { x with lastIbi := some (s.now, x.occ) })) ∧
     ((s.mgmt.i3c.get t).ibi ≠ none → exec (.i3cIbiNack t) s = .next ((s.updI3c t fun x => { x with
       ibi := some (ibiPayload e (s.mgmt.ev.get e).occ), ibiq := r }).updEv e fun x =>
         { x with lastIbi := some (s.now, x.occ) }))) ∧
   ∀ (t : Fin 4) (s : State), (∀ k, (s.mgmt.ev.get k).ibiEn = true → (s.mgmt.ev.get k).ibiTgt = t →
       (s.mgmt.ev.get k).occ = (s.mgmt.ev.get k).ack) → s.mgmtOn = true →
     exec (.i3cIbiEnabled t) s = .next ((s.updClk fun k => { k with freeCtr := k.freeCtr + 1 }).updI3c t fun x => { x with
       ibiOn := true, dynAddr := some (x.dynAddr.getD (Config.freeBits 7 s.clk.freeCtr)), ibi := none, ibiq := [] }) ∧
     ((s.mgmt.i3c.get t).ibi ≠ none → exec (.i3cIbiNack t) s = .next (s.updI3c t fun x => { x with ibi := none, ibiq := [] }))) ∧
  (∀ (t : Fin 4) (bytes : List Byte) (s : State), s.mgmtOn = true → (s.mgmt.i3c.get t).ibi = none →
     ((bytes.length = 7 → exec (.i3cRegisterWrite t bytes) s = .next (s.access
       { who := sbIdent t, org := .sideband t, off := BitVec.ofNat 24 (bytesAt bytes 0 3),
         wr := some (w32 (bytesAt bytes 3 4)) })) ∧
     (bytes.length ≠ 7 → exec (.i3cRegisterWrite t bytes) s =
       .next (s.updI3c t fun x => { x with last := 3, nack := false })) ∧
     (bytes.length = 3 → (s.mgmt.i3c.get t).busy = false → (s.mgmt.i3c.get t).ready = none →
       exec (.i3cRegisterRead t bytes) s = .next (s.access
         { who := sbIdent t, org := .sideband t, off := BitVec.ofNat 24 (bytesAt bytes 0 3), wr := none })) ∧
     (bytes.length = 3 → (s.mgmt.i3c.get t).busy = true →
       exec (.i3cRegisterRead t bytes) s = .next (s.updI3c t fun x => { x with nack := true })) ∧
     (exec (.i3cStatusRead t) s = .next (s.updI3c t fun x => { x with rdata := x.last.setWidth 40, nack := false }))) ∧
     (∀ w, bytes.length = 3 → (s.mgmt.i3c.get t).busy = false → (s.mgmt.i3c.get t).ready = none →
       plainOff (BitVec.ofNat 24 (bytesAt bytes 0 3)).toNat = true →
       s.regOff (BitVec.ofNat 24 (bytesAt bytes 0 3)).toNat = false →
       s.peek (BitVec.ofNat 24 (bytesAt bytes 0 3)).toNat = some w →
       exec (.i3cRegisterRead t bytes) s =
         .next (s.updI3c t fun x => { x with rdata := (0 : BitVec 8) ++ w, nack := false })) ∧
     (∀ a r, bytes.length = 7 →
       a = { who := sbIdent t, org := .sideband t, off := BitVec.ofNat 24 (bytesAt bytes 0 3), wr := some (w32 (bytesAt bytes 3 4)) } →
       (s.performOrdered a).1 = r → r ≠ .wait →
       exec (.i3cRegisterWrite t bytes) s = .next ((s.performOrdered a).2.updI3c t fun x => { x with nack := false, last := match r with
         | .err e => e.setWidth 8
         | .ok _ => 0
         | .wait => 0 })) ∧
     ∀ d, bytes.length = 3 → (s.mgmt.i3c.get t).busy = false →
       (s.mgmt.i3c.get t).ready = some (BitVec.ofNat 24 (bytesAt bytes 0 3), d) →
       exec (.i3cRegisterRead t bytes) s =
         .next (s.updI3c t fun x => { x with ready := none, rdata := d, nack := false }))

/-- The log writer. With no packet open, the oldest queued packet is written behind its header where it fits whole;
the sequence number rises, the gap flag goes with it. A payload of firmware joins the open packet. A bank that has no
room while the other is empty waits for a swap. Clauses that rest on the model's choices follow log entry 2. -/
def Obligations.LogPackets : Prop :=
  (∀ (p : LogPkt) (r : List LogPkt) (s : State), s.mgmtOn = true → s.mgmt.log.hq = p :: r →
    s.mgmt.log.openPkt = none → s.mgmt.log.fill.length + p.words.length + 1 ≤ 2047 →
    ∃ t, exec .logPacketWrite s = .next t ∧ t.mgmt.log.hq = r ∧
      t.mgmt.log.fill = s.mgmt.log.fill ++ logHeader p.type false s.mgmt.log.gap s.mgmt.log.seq p.words.length :: p.words ∧
      t.mgmt.log.seq = s.mgmt.log.seq + 1 ∧ t.mgmt.log.gap = false ∧ t.mgmt.log.drain = s.mgmt.log.drain ∧
      t.mgmt.log.dropped = s.mgmt.log.dropped ∧ t.chan = s.chan ∧ t.hlm = s.hlm ∧ t.port = s.port ∧ t.dram = s.dram) ∧
  (∀ (p : LogPkt) (r : List LogPkt) (s : State), s.mgmtOn = true → s.mgmt.log.hq = p :: r →
    s.mgmt.log.openPkt = none → 2047 < s.mgmt.log.fill.length + p.words.length + 1 → s.mgmt.log.drain = [] → s.mgmt.log.fill ≠ [] →
    exec .logPacketWrite s = .next (s.updLog fun l => { l with waiting := some (p.words.length + 1) })) ∧
  (∀ (att : Bool) (code : BitVec 16) (d : Nat) (s : State), s.mgmt.log.openPkt = none → s.mgmt.log.hq = [] →
    s.mgmt.fw.st ≠ .restarting → s.mgmtOn = true → s.mgmt.log.fill.length + d + 1 ≤ 2047 → s.mgmt.log.fill.length < 2046 →
    exec (.fwLogPacket (.openPkt att code d)) s = .next (s.updLog fun l => { l with
      openPkt := some {
        type := 2, mark := l.fill.length, words := [bit1 att ++ (0 : BitVec 15) ++ code], trunc := false,
        openedAt := s.now, abandoned := false, attention := att, code := code } })) ∧
  (∀ (w : Word) (p : OpenPkt) (s : State), s.mgmt.log.openPkt = some p → p.trunc = false →
    p.mark + 1 + p.words.length < 2047 → p.words.length < 254 →
    exec (.fwLogPacket (.payload w)) s =
      .next (s.updLog fun l => { l with openPkt := some { p with words := p.words ++ [w] } })) ∧
  (∀ (p : OpenPkt) (s : State), s.mgmtOn = true → s.mgmt.log.openPkt = some p → p.abandoned = false →
    (∃ t, exec (.fwLogPacket .closePkt) s = .next t ∧ t.mgmt.log.openPkt = none ∧
      t.mgmt.log.fill = s.mgmt.log.fill ++
        logHeader p.type p.trunc s.mgmt.log.gap s.mgmt.log.seq p.words.length :: p.words) ∧
    (∃ t, exec .logPacketTimeout s = .next t ∧ t.mgmt.log.openPkt = none ∧ t.clk.now = max s.clk.now (p.openedAt + 10000) ∧
      t.mgmt.log.truncated = satInc s.mgmt.log.truncated ∧
      t.mgmt.log.fill = s.mgmt.log.fill ++ logHeader p.type true s.mgmt.log.gap s.mgmt.log.seq p.words.length :: p.words))

/-- The banks. 100 us after the first closed packet a swap is due; a swap hands the filling bank over, with a gap
marker at its end where packets were dropped; a read of LOG_POP takes the oldest unread word, or waits where there is
none; a flush empties both banks and leaves a marker. Clauses that rest on the model's choices follow log entry 2. -/
def Obligations.LogBanks : Prop :=
  (∀ (u : Nat) (s : State), s.mgmtOn = true → s.mgmt.log.firstClosed = some u →
    exec .logSwapTimer s = .next ((s.advance (u + 100000)).updLog fun l => { l with swapDue := true })) ∧
  (∀ (s : State), s.mgmtOn = true → s.mgmt.log.canSwap = true → s.mgmt.log.pops = [] →
    ∃ t, exec .logBankSwap s = .next t ∧ t.mgmt.log.fill = [] ∧ t.mgmt.log.drops = 0 ∧ t.mgmt.log.swapDue = false ∧
      t.mgmt.log.drain = s.mgmt.log.fill ++ (if s.mgmt.log.drops = 0 then [] else
        [logHeader 0 false true (BitVec.ofNat 16 (min 65535 s.mgmt.log.drops)) 0]) ∧
      t.chan = s.chan ∧ t.hlm = s.hlm ∧ t.port = s.port) ∧
  (∀ (who : Ident) (w : Word) (r : List Word) (s : State), s.mgmtOn = true → s.mgmt.log.drain = w :: r →
    exec (.logPop who) s = .next (answered (s.updLog fun l => { l with drain := r }) (.ok w))) ∧
  (∀ (who : Ident) (s : State), s.mgmtOn = true → s.mgmt.log.drain = [] →
    exec (.logPop who) s = .next (answered (s.updLog fun l => { l with
      pops := l.pops ++ [{ who := who, org := .direct, off := 0x2000, wr := none }] }) .wait)) ∧
  (∀ (who : Ident) (v : Word) (s : State), s.mgmtOn = true → v.getLsbD 16 = true → s.mgmt.log.openPkt = none →
    exec (.flush who v) s = .next (answered ((s.updLog fun l => { l with
      levelThresh := v.extractLsb' 0 12, fill := [logHeader 0 false true 0 0], drain := [], drops := 0, swapDue := false,
      gap := true, dropRun := false, flushes := l.flushes + 1, firstClosed := some s.now }).levelCheck s.mgmt.log.unread)
        (.ok 0))) ∧
  (∀ (who : Ident) (v : Word) (p : OpenPkt) (s : State), s.mgmtOn = true → v.getLsbD 16 = true →
    s.mgmt.log.openPkt = some p → p.abandoned = false →
    exec (.flush who v) s = .next (answered ((s.updLog fun l => { l with
      levelThresh := v.extractLsb' 0 12, fill := [], drain := [], drops := 0, swapDue := false, gap := true,
      dropRun := false, flushes := l.flushes + 1, firstClosed := none,
      openPkt := some { p with abandoned := true, mark := 0 } }).levelCheck s.mgmt.log.unread) (.ok 0)))

/-- R345: a word that the owner writes to an empty inbound register is stored under the owner's identity, whatever its
bits 31 to 21, and reads back so; the full flag and the wake rise. -/
def Obligations.InboundStamp : Prop :=
  (∀ (who : Ident) (k : Mb) (v : Word) (s : State), s.mgmtOn = true → (s.mb k).owner = some who →
    (s.mb k).inFull = false → s.fw.waiting = false →
    exec (.mailboxInboundWrite who k v) s = .next (answered (s.updMb k fun b =>
      { b with inw := who ++ v.extractLsb' 0 21, inFull := true, wake := true }) (.ok 0))) ∧
  (∀ (who : Ident) (k : Mb) (v : Word) (s : State), s.mgmtOn = true → (s.mb k).owner = some who →
    (s.mb k).inFull = false → s.fw.waiting = true →
    ∃ t, exec (.mailboxInboundWrite who k v) s = .next t ∧
      t.mb k = { (s.mb k) with inw := who ++ v.extractLsb' 0 21, inFull := true, wake := true } ∧
      (∀ j, j ≠ k → t.mb j = s.mb j) ∧ t.mgmt.fw.waiting = false ∧ t.hlm = s.hlm ∧ t.dram = s.dram) ∧
  (∀ (w : Word), w = cmdStamp w ++ cmdOpcode w ++ cmdTag w ++ cmdArg w) ∧
  (∀ (k : Mb) (s : State), s.peek (0x800 + 16 * k.val) = some (s.mb k).inw) ∧
  (∀ (who : Ident) (k : Mb) (v : Word) (s : State), s.mgmtOn = true → (s.mb k).owner = some who →
    (s.mb k).inFull = true →
    exec (.mailboxInboundWrite who k v) s =
      .next (answered (s.updMb k fun b => { b with inOvf := satInc b.inOvf }) (.ok 0))) ∧
  (∀ (who : Ident) (k : Mb) (v : Word) (s : State), s.mgmtOn = true → (s.mb k).owner ≠ some who →
    exec (.mailboxInboundWrite who k v) s = .next (answered s (.err errDENIED)) ∧
    exec (.outTake who k v) s = .next (answered s (.err errDENIED)))

/-- Firmware takes an inbound word: the register empties, IN_EMPTY occurs, and the command is in progress, with what
it holds and whether another holds that already (BUSY), or where one of the first three checks fails its refusal is
ready. Firmware posts the first answer that waits: OUT_FULL occurs, and the tag stays busy until the owner takes the
word. Clauses that rest on the model's choices follow log entry 39. Firmware's hold of a window begins and ends; 50 us
after its start it ends by itself. At the end the accesses that waited are performed in order. No other channel is
touched. Clauses that rest on the model's choices follow log entries 2 and 46. -/
def Obligations.MailboxFirmware : Prop :=
  ((∀ (k : Mb) (s : State), s.fwRuns = true → (s.mb k).inFull = true → (s.mb k).takeStatus (s.mb k).inw = none →
     exec (.fwTake k) s = .next (((s.updMb k fun b => { b with
       inFull := false, wake := false,
       cmds := b.cmds ++ [{ tag := cmdTag b.inw, word := b.inw, running := false, seq := s.fw.takeSeq,
                            res := s.resOf k b.inw, busy := s.resHeld (s.resOf k b.inw),
                            idle := (s.cmdChans k b.inw).all fun n => (s.chan.get (s.map.server n)).holdIdle }] }).updFw fun f =>
         { f with takeSeq := f.takeSeq + 1 }).raise (evInEmpty k) 0 0 0)) ∧
   (∀ (k : Mb) (e : BitVec 4) (s : State), s.fwRuns = true → (s.mb k).inFull = true →
     (s.mb k).takeStatus (s.mb k).inw = some e →
     exec (.fwTake k) s = .next (((s.updMb k fun b => { b with
       inFull := false, wake := false,
       answers := b.answers ++ [{ opcode := cmdOpcode b.inw, tag := cmdTag b.inw, status := e, result := 0 }] }).updFw fun f =>
         { f with takeSeq := f.takeSeq + 1 }).raise (evInEmpty k) 0 0 0)) ∧
   (∀ (k : Mb) (a : Answer) (r : List Answer) (s : State), s.fwRuns = true → (s.mb k).answers = a :: r →
     (s.mb k).outFull = false → (s.mb k).waiting = [] →
     (∀ x ∈ s.fw.resetAsks, x.1 = k → x.2.1 ≠ a.tag) →
     exec (.fwPost k) s = .next ((s.updMb k fun b => { b with
       winFw := false, answers := r, out := a.word, outFull := true,
       posted := if a.opcode = 0x7F then b.posted else b.posted ++ [a.tag] }).raise (evOutFull k) 0 0 0)) ∧
   (∀ (who : Ident) (k : Mb) (v : Word) (s : State), s.mgmtOn = true → (s.mb k).owner = some who →
     (s.mb k).outFull = true → v.getLsbD 0 = true → cmdOpcode (s.mb k).out ≠ 0x7F → cmdOpcode (s.mb k).out ≠ 0x78 →
     exec (.outTake who k v) s = .next (answered (s.updMb k fun b =>
       { b with outFull := false, posted := b.posted.erase (cmdTag b.out) }) (.ok 0))) ∧
   (∀ (who : Ident) (k : Mb) (v : Word) (s : State), s.mgmtOn = true → (s.mb k).owner = some who →
     (s.mb k).outFull = true → v.getLsbD 0 = true → outIsScrubDone (s.mb k).out = true → s.mgmt.scrub.mb = some k →
     s.mgmt.scrub.running = false →
     exec (.outTake who k v) s = .next (answered ((s.updMb k fun b => { b with outFull := false }).updScrub fun b =>
       { b with held := false }) (.ok 0)))) ∧
  ((∀ (k : Mb) (s : State), s.fwRuns = true → (s.mb k).winFw = false →
     exec (.windowHold k) s = .next (s.updMb k fun b => { b with winFw := true, holdAt := s.now })) ∧
   (∀ (k : Mb) (s : State), s.fwRuns = true → (s.mb k).winFw = true →
     ∃ t, exec (.windowHold k) s = .next t ∧ (t.mb k).winFw = false ∧ (t.mb k).waiting = [] ∧
       (t.mb k).win = lateWrites (s.mb k).win (s.mb k).waiting ∧ (∀ j, j ≠ k → t.mb j = s.mb j) ∧ t.chan = s.chan ∧
       t.clk = s.clk) ∧
   (∀ (k : Mb) (s : State), (s.mb k).winFw = true →
     ∃ t, exec (.windowWaitExpiry k) s = .next t ∧ t.clk.now = max s.clk.now ((s.mb k).holdAt + 50000) ∧
       (t.mb k).winFw = false ∧ (t.mb k).waiting = [] ∧ (t.mb k).win = lateWrites (s.mb k).win (s.mb k).waiting ∧
       (∀ j, j ≠ k → t.mb j = s.mb j) ∧ t.chan = s.chan))

/-- R128: a write of CHn_CLASS_RSVc is refused with BADFLD where max exceeds 256, min exceeds max, or the minimums
would sum to more than 256; a performed write, to a quad that is powered, sets both fields and evicts no entry; a
class at or above the maximum that a CC finds takes no entry in it. -/
def Obligations.ClassLimitWrite : Prop :=
  (∀ (who : Ident) (n : Ch) (c : Fin 16) (v : Word) (s : State), s.mgmtOn = true → s.quadOn n = true →
    ((256 < (v.extractLsb' 9 9).toNat ∨ (v.extractLsb' 9 9).toNat < (v.extractLsb' 0 9).toNat ∨
        256 < ((upd (s.chan.get n).cfg.rsvMin c fun _ => v.extractLsb' 0 9).toList.map BitVec.toNat).sum) →
      exec (.registerWrite who (.off (BitVec.ofNat 24 (offChan n (0x10 + 4 * c.val)))) v) s =
        .next (answered s (.err errBADFLD))) ∧
    (¬ (256 < (v.extractLsb' 9 9).toNat ∨ (v.extractLsb' 9 9).toNat < (v.extractLsb' 0 9).toNat ∨
        256 < ((upd (s.chan.get n).cfg.rsvMin c fun _ => v.extractLsb' 0 9).toList.map BitVec.toNat).sum) →
      exec (.registerWrite who (.off (BitVec.ofNat 24 (offChan n (0x10 + 4 * c.val)))) v) s =
        .next (answered (s.updChan n fun x => ({ x with cfg := { x.cfg with
          rsvMin := upd x.cfg.rsvMin c fun _ => v.extractLsb' 0 9,
          rsvMax := upd x.cfg.rsvMax c fun _ => v.extractLsb' 9 9 } } : Chan).noteCfg x s.now) (.ok 0)))) ∧
  (∀ (c : Chan) (k : Fin 16) (now : Nat), ((c.cfgAt now).rsvMax.get k).toNat ≤ c.occ (BitVec.ofNat 4 k.val) →
    c.canTake now (BitVec.ofNat 4 k.val) = false)

/-- The request granted at a channel port leaves its module, whose credit is then due; a posted write has its WACK;
the request takes the lowest free entry, with its kind, port and tag, and the round robin moves on. In the order of
the channel an LDR whose line nothing in the engine holds records its port's reservation, protected; an STC finds it
or not, and ends it, with those of its line where it passes; a store ends those of its line; and each request of a
port but its LDR ends the protection of its reservation. A request that fails a check on its way is not performed, is
answered with ERROR HWFAULT, and its credit is due; one whose place an upset has changed where no check covers it
enters the table with that place. No other channel and no other module changes. Clauses that rest on the model's
choices follow log entries 6, 52 and 53. The response granted to a module leaves its channel port, and the round robin
moves on; with its last response an entry is free. It joins the module's responses unless a link reset has voided its
tag; of a 128-byte read each half comes through the port of its channel, the first waits for the second, and both go
on as one RDATA. A response whose transfer has failed twice arrives poisoned and is reported; one that an upset
outside the checks has met carries wrong data. -/
def Obligations.Crossbar : Prop :=
  ((∀ (n : Ch) (u : Upset) (m : Mod) (r : Rq) (s : State), s.accepts n = true → s.pickRequest n = some (m, r) →
     (u = .none ∨ u = .xferOnce) →
     ∃ t, exec (.crossbarRequestGrant ⟨n, u⟩) s = .next t ∧ (t.chan.get n).st.rr = m + 1 ∧
       (t.chan.get n).st.lastGrant = some s.now ∧
       (r.kind ≠ .hint → (t.chan.get n).st.ageCtr = (s.chan.get n).st.ageCtr + 1) ∧
       ((r.kind = .rd64 ∨ r.kind = .rd128 ∨ r.kind = .ldr ∨ r.kind = .amo ∨ r.kind = .stc) → s.map.isFollower n = false →
         ∃ e, (t.chan.get n).entry? (s.chan.get n).freeIdx = some e ∧ e.kind = r.kind ∧ e.tag = r.tag ∧ e.loc = r.loc ∧
           e.gport = BitVec.ofNat 9 (gport m r.port).val) ∧
       ((r.kind = .wr64 ∨ r.kind = .wrp) →
         (t.hlm.get m).posted = (s.hlm.get m).posted.filter (·.seq != r.seq) ∧
         (t.hlm.get m).ingress = (s.hlm.get m).ingress ∧
         ((s.hlm.get m).tags.any (fun q => q.port == r.port && q.tag == r.tag && q.seq == r.seq) = true →
           (t.hlm.get m).txq = (s.hlm.get m).txq ++ [outMsg 0x02 r.port r.tag] ∧
           (t.hlm.get m).dueWrite = (s.hlm.get m).dueWrite + 1)) ∧
       (r.kind ≠ .wr64 → r.kind ≠ .wrp →
         (t.hlm.get m).ingress = (s.hlm.get m).ingress.filter (·.seq != r.seq) ∧
         (t.hlm.get m).posted = (s.hlm.get m).posted ∧ (t.hlm.get m).txq = (s.hlm.get m).txq ∧
         (t.hlm.get m).dueRead = (s.hlm.get m).dueRead + 1) ∧
       ((∀ v ∈ (s.chan.get n).st.rsvEvs, (v.maint = true → v.at_ ≠ s.now) ∧
           ∀ i, v.idx = some i → i ≠ (s.chan.get n).freeIdx ∧ ∀ e ∈ (s.chan.get n).st.tt, e.kind = .hint → e.idx ≠ i) →
         (r.kind = .ldr → ((s.chan.get n).rsvNow.length < 32 ∨
             ∃ q ∈ (s.chan.get n).rsvNow, q.port = BitVec.ofNat 9 (gport m r.port).val) →
           (∀ e ∈ (s.chan.get n).st.tt, e.loc ≠ r.loc) → (s.chan.get n).lbOf r.loc = none →
           (t.chan.get n).rsvNow = ((s.chan.get n).rsvNow.filter (·.port != BitVec.ofNat 9 (gport m r.port).val)) ++
             [{ port := BitVec.ofNat 9 (gport m r.port).val, loc := r.loc, twin := r.twin, at_ := s.now, prot := true }]) ∧
         (r.kind = .stc →
           (t.chan.get n).rsvNow = ((s.chan.get n).rsvNow.filter (·.port != BitVec.ofNat 9 (gport m r.port).val)).filter
             (fun q => q.loc != r.loc || !(s.chan.get n).rsvNow.any fun q =>
               q.port == BitVec.ofNat 9 (gport m r.port).val && q.loc == r.loc) ∧
           ∀ e, (t.chan.get n).entry? (s.chan.get n).freeIdx = some e →
             ((t.chan.get n).stcPasses e = true ↔ ∃ q ∈ (s.chan.get n).rsvNow,
               q.port = BitVec.ofNat 9 (gport m r.port).val ∧ q.loc = r.loc)) ∧
         ((r.kind = .wr64 ∨ r.kind = .amo ∨ r.kind = .wrp ∧ r.mask ≠ 0) →
           (t.chan.get n).rsvNow = ((s.chan.get n).rsvNow.map fun q =>
             if q.port = BitVec.ofNat 9 (gport m r.port).val then { q with prot := false } else q).filter (·.loc != r.loc)) ∧
         ((r.kind = .rd64 ∨ r.kind = .rd128 ∨ r.kind = .hint ∨ r.kind = .wrp ∧ r.mask = 0) →
           (t.chan.get n).rsvNow = (s.chan.get n).rsvNow.map fun q =>
             if q.port = BitVec.ofNat 9 (gport m r.port).val then { q with prot := false } else q)) ∧
       (∀ k, k ∉ s.map.reach n → t.chan.get k = s.chan.get k) ∧ (∀ k, k ≠ m → t.hlm.get k = s.hlm.get k) ∧
       t.port = s.port ∧ t.dram = s.dram ∧ t.mgmt = s.mgmt) ∧
   (∀ (n : Ch) (u : Upset) (m : Mod) (r : Rq) (s : State), s.accepts n = true → s.pickRequest n = some (m, r) →
     (u = .header ∨ u = .store ∨ u = .xferTwice) →
     ∃ t, exec (.crossbarRequestGrant ⟨n, u⟩) s = .next t ∧
       (t.hlm.get m).ingress = (s.hlm.get m).ingress.filter (·.seq != r.seq) ∧
       (t.hlm.get m).posted = (s.hlm.get m).posted.filter (·.seq != r.seq) ∧
       ((r.kind = .wr64 ∨ r.kind = .wrp) → (t.hlm.get m).dueWrite = (s.hlm.get m).dueWrite + 1) ∧
       (r.kind ≠ .wr64 → r.kind ≠ .wrp → (t.hlm.get m).dueRead = (s.hlm.get m).dueRead + 1) ∧
       ((s.hlm.get m).tags.any (fun q => q.port == r.port && q.tag == r.tag && q.seq == r.seq) = true →
         (t.hlm.get m).txq = (s.hlm.get m).txq ++
           [{ outMsg 0x08 r.port r.tag with status := 9, aux := r.addr.extractLsb' 0 32 }] ∧
         ∃ o, t.mgmt.occq = s.mgmt.occq ++ [o] ∧ o.e = 356 ∧
           o.detA = (if u = .header then 1 else if u = .store then 2 else 3)) ∧
       (∀ k, k ≠ m → t.hlm.get k = s.hlm.get k) ∧ (∀ k, (t.chan.get k).st.tt = (s.chan.get k).st.tt) ∧
       t.port = s.port ∧ t.dram = s.dram) ∧
   (∀ (n : Ch) (l : Loc) (m : Mod) (r : Rq) (s : State), s.accepts n = true → s.pickRequest n = some (m, r) →
     (r.kind = .rd64 ∨ r.kind = .rd128 ∨ r.kind = .ldr ∨ r.kind = .amo ∨ r.kind = .stc) → s.map.isFollower n = false →
     ∃ t, exec (.crossbarRequestGrant ⟨n, .place l⟩) s = .next t ∧
       (∃ e, (t.chan.get n).entry? (s.chan.get n).freeIdx = some e ∧ e.kind = r.kind ∧ e.tag = r.tag ∧ e.loc = l) ∧
       (t.hlm.get m).ingress = (s.hlm.get m).ingress.filter (·.seq != r.seq) ∧ t.mgmt = s.mgmt ∧ t.dram = s.dram)) ∧
  (∀ (n : Ch) (m : Mod) (u : Upset) (r : Resp) (s : State), (s.hlm.get m).mayTake s.now = true → s.domOn 2 = true →
     s.modOn m = true → s.pickResponse m = some (n, r) →
     ∃ t, exec (.crossbarResponseGrant ⟨m, u⟩) s = .next t ∧ (t.hlm.get m).rr = n + 1 ∧
       (r.epoch ≠ (s.hlm.get m).epoch → (t.hlm.get m).txq = (s.hlm.get m).txq ∧
         (t.hlm.get m).halves = (s.hlm.get m).halves) ∧
       (r.epoch = (s.hlm.get m).epoch → r.part = none → (t.hlm.get m).halves = (s.hlm.get m).halves ∧
         (u ≠ .xferTwice → (t.hlm.get m).txq = (s.hlm.get m).txq ++
           [{ r.msg with data := if r.poison then r.data else r.data ^^^ (wrongBits u).setWidth 1024 }]) ∧
         (u = .xferTwice → (t.hlm.get m).txq = (s.hlm.get m).txq ++ [{ r.msg with poison := true, data := 0 }])) ∧
       (∀ hi, r.epoch = (s.hlm.get m).epoch → r.part = some hi → u ≠ .xferTwice → wrongBits u = 0 →
         ((s.hlm.get m).halves.find? (fun o => o.port == r.port && o.tag == r.tag) = none →
           (t.hlm.get m).txq = (s.hlm.get m).txq ∧ (t.hlm.get m).halves = (s.hlm.get m).halves ++ [r.msg]) ∧
         ∀ o, (s.hlm.get m).halves.find? (fun o => o.port == r.port && o.tag == r.tag) = some o →
           r.poison = false → o.poison = false →
           (t.hlm.get m).txq = (s.hlm.get m).txq ++ [{ r.msg with
             dsz := 4, data := if hi then (r.data <<< 512) ||| o.data else (o.data <<< 512) ||| r.data }]) ∧
       (t.chan.get (s.map.server n)).st.respq = (if s.map.isFollower n then (s.chan.get (s.map.server n)).st.respq
         else (s.chan.get (s.map.server n)).st.respq.filter (·.idx != r.idx)) ∧
       (t.chan.get (s.map.server n)).st.respqF = (if s.map.isFollower n
         then (s.chan.get (s.map.server n)).st.respqF.filter (·.idx != r.idx)
         else (s.chan.get (s.map.server n)).st.respqF) ∧
       ((∀ e ∈ (s.chan.get (s.map.server n)).st.tt, e.st ≠ .chain) → r.part = none →
         (t.chan.get (s.map.server n)).st.tt =
           (s.chan.get (s.map.server n)).st.tt.filter fun e => decide (e.idx ≠ r.idx)) ∧
       (u = .xferTwice → ∃ o, t.mgmt.occq = s.mgmt.occq ++ [o] ∧ o.e = 356 ∧ o.detA = 3) ∧
       (u ≠ .xferTwice → t.mgmt = s.mgmt) ∧
       (∀ k, k ≠ s.map.server n → t.chan.get k = s.chan.get k) ∧ (∀ k, k ≠ m → t.hlm.get k = s.hlm.get k) ∧
       t.port = s.port ∧ t.dram = s.dram)

/-- One CC of an engine that runs: the CC passes, at most one column and one row command go, and nothing outside the
channels that the engine reaches is touched; no module, no port, no other channel. Clauses that rest on the model's
choices follow log entry 2. A CC of an engine whose table holds one request: the command that the request needs goes
on its bus. With its row open it is the column command, RD or WR with or without auto-precharge, and the entry awaits
its data; with its bank closed, no TRF owed to the row and no pacing, it is the ACT of its row; with another row open
it is the PRE. -/
def Obligations.OneCommandPerBus : Prop :=
  (∀ (n : Ch) (cc : Nat) (s : State), s.engineRuns n = true → s.now ≤ cc →
     (∀ u, (s.chan.get n).st.lastCc = some u → u < cc) →
     ∃ t, exec (.schedulerCc n cc) s = .next t ∧ t.clk.now = cc ∧ (t.chan.get n).st.lastCc = some cc ∧
       ((t.chan.get n).cnt.col = (s.chan.get n).cnt.col ∨ (t.chan.get n).cnt.col = (s.chan.get n).cnt.col + 1) ∧
       ((t.chan.get n).cnt.act = (s.chan.get n).cnt.act ∨ (t.chan.get n).cnt.act = (s.chan.get n).cnt.act + 1) ∧
       (∀ k, k ∉ s.map.reach n → t.chan.get k = s.chan.get k) ∧ t.hlm = s.hlm ∧ t.port = s.port ∧ t.map = s.map) ∧
  (∀ (n : Ch) (cc : Nat) (e : Entry) (s : State), Alone s n e → s.now ≤ cc →
     (∀ u, (s.chan.get n).st.lastCc = some u → u < cc) →
     (((s.chan.get n).bank e.loc.bank).row = some e.loc.row →
       ∃ t, exec (.schedulerCc n cc) s = .next t ∧ (t.chan.get n).cnt.col = (s.chan.get n).cnt.col + 1 ∧
         (t.chan.get n).st.hist.head?.map (fun p => (p.at_, p.loc)) = some (cc, e.loc) ∧
         (∀ p, (t.chan.get n).st.hist.head? = some p → t.colBus n = colFrame p.op e.loc ∧
           (e.isWrite = true → p.op = .wr ∨ p.op = .wra) ∧ (e.isWrite = false → p.op = .rd ∨ p.op = .rda)) ∧
         (t.chan.get n).st.tt.map (fun x => (x.idx, x.st, x.colAt)) =
           [(e.idx, if e.isWrite then .colwr else .colrd, cc)] ∧
         (∀ k, k ≠ n → t.chan.get k = s.chan.get k) ∧ t.hlm = s.hlm) ∧
     (((s.chan.get n).bank e.loc.bank).row = none → ((s.chan.get n).trk e.loc.bank).beforeAct e.loc.row = none →
       (s.chan.get n).cfg.pace = 0 →
       ∃ t, exec (.schedulerCc n cc) s = .next t ∧ (t.chan.get n).cnt.act = (s.chan.get n).cnt.act + 1 ∧
         (t.chan.get n).cnt.col = (s.chan.get n).cnt.col ∧
         ((t.chan.get n).bank e.loc.bank).row = some e.loc.row ∧
         (t.chan.get n).st.hist.map (fun p => (p.op, p.at_, p.loc)) = [(.act, cc, e.loc)] ∧
         t.rowBus n = rowFrame .act e.loc 0 0 ∧ t.colBus n = 0 ∧
         (∀ k, k ≠ n → t.chan.get k = s.chan.get k) ∧ t.hlm = s.hlm ∧ t.dram = s.dram) ∧
     (∀ r, ((s.chan.get n).bank e.loc.bank).row = some r → r ≠ e.loc.row →
       ∃ t, exec (.schedulerCc n cc) s = .next t ∧ (t.chan.get n).cnt.col = (s.chan.get n).cnt.col ∧
         ((t.chan.get n).bank e.loc.bank).row = none ∧
         (t.chan.get n).st.hist.map (fun p => (p.op, p.at_, p.loc.bank)) = [(.pre, cc, e.loc.bank)] ∧
         t.rowBus n = rowFrame .pre (bankLoc e.loc.bank 0 0) 0 0 ∧ t.colBus n = 0 ∧
         (∀ k, k ≠ n → t.chan.get k = s.chan.get k) ∧ t.hlm = s.hlm ∧ t.dram = s.dram))

/-- While the trip hold of an engine is set, its scheduler issues no ACT: at a CC of the engine no ACT joins the
history of any channel, the count of ACTs stays, and the hold stays set. -/
def Obligations.TripHoldStopsActs : Prop :=
  ∀ (n : Ch) (cc : Nat) (s t : State), (s.chan.get n).st.tripHold = true → exec (.schedulerCc n cc) s = .next t →
    (∀ k, ∀ p ∈ (t.chan.get k).st.hist, p.op = .act → p ∈ (s.chan.get k).st.hist) ∧
      (t.chan.get n).cnt.act = (s.chan.get n).cnt.act ∧ (t.chan.get n).st.tripHold = true

/-- What the scheduler issues at a CC keeps its distance from every earlier command to the same bank: ACT to ACT tRC,
ACT to a column command tRCD, ACT to PRE tRAS, PRE to ACT tRP, each with the values that were in force at the earlier
command. The values lie within the history that the model keeps. -/
def Obligations.CommandsKeepTiming : Prop :=
  ∀ (n : Ch) (cc : Nat) (s t : State), exec (.schedulerCc n cc) s = .next t →
    (∀ q ∈ (s.chan.get n).st.hist, q.tim.tRC ≤ histWindow ∧ q.tim.tRCD ≤ histWindow ∧ q.tim.tRAS ≤ histWindow ∧
      q.tim.tRP ≤ histWindow) →
    ∀ p ∈ (t.chan.get n).st.hist, p ∉ (s.chan.get n).st.hist →
      ∀ q ∈ (s.chan.get n).st.hist, q.loc.bank = p.loc.bank →
        (q.op = .act → p.op = .act → q.at_ + q.tim.tRC ≤ p.at_) ∧
        (q.op = .act → (p.op = .rd ∨ p.op = .rda ∨ p.op = .wr ∨ p.op = .wra) → q.at_ + q.tim.tRCD ≤ p.at_) ∧
        (q.op = .act → p.op = .pre → q.at_ + q.tim.tRAS ≤ p.at_) ∧
        (q.op = .pre → p.op = .act → q.at_ + q.tim.tRP ≤ p.at_)

/-- Reads in COLRD. Of a host read a word within the code's reach answers with the line's data, poison 0; stored
poison within reach answers poison 1 and no data; a word found uncorrectable for the first time is read again. A scrub
visit counts its word and ends its entry. The burst of a read that a command error makes uncertain is not used.
Clauses that rest on the model's choices follow log entries 2, 3 and 4. -/
def Obligations.ReadIsDecoded : Prop :=
  (∀ (n : Ch) (i : EntryIx) (e : Entry) (errs : List SymErr) (s : State), (s.chan.get n).entry? i = some e →
    e.st = .colrd → e.retryDue = false → (s.chan.get n).unsure e.colAt = false → (e.kind = .rd64 ∨ e.kind = .rd128 ∨ e.kind = .ldr) →
    s.storedPoison n e.twin e.loc = false → inArray s n e →
    2 * (errs.filter fun x => x.xor != 0 && decide (x.pos < rsLen e.twin) && !s.onMark n e x.pos).length +
      s.erasures n e ≤ rsChecks e.twin →
    ∃ t, exec (.readDataDecode n i errs) s = .next t ∧
      t.clk.now = max s.clk.now (e.colAt + (s.tim n).rl + 5) ∧
      (∃ r, (t.chan.get n).st.respq = ((s.chan.get n).st.respq ++
        [{ idx := e.idx, mod := portMod e.gport, epoch := e.epoch, port := portLocal e.gport, tag := e.tag, opc := 0x01,
           status := 0, poison := false, cls := e.cls, at_ := e.at_,
           dsz := if e.kind = .rd128 then 4 else if e.kind = .ldr then 1 else 3,
           data := if e.kind = .rd128 then s.readStored n e.twin e.loc
             else if e.kind = .ldr then ((s.readStored n e.twin e.loc).extractLsb' e.bitOff 64).setWidth 1024
             else (((s.readStored n e.twin e.loc) >>> (if e.half then 512 else 0)).setWidth 512).setWidth 1024 }]) ++ r ∧
        ∀ x ∈ r, x.opc = 0x01) ∧
      t.hlm = s.hlm ∧ t.port = s.port ∧ t.dram = s.dram) ∧
  (∀ (n : Ch) (i : EntryIx) (e : Entry) (errs : List SymErr) (s : State), (s.chan.get n).entry? i = some e →
    e.st = .colrd → e.retryDue = false → (s.chan.get n).unsure e.colAt = false → e.kind = .rd64 → s.storedPoison n e.twin e.loc = true →
    inArray s n e →
    2 * (errs.filter fun x => x.xor != 0 && decide (x.pos < rsLen e.twin) && !s.onMark n e x.pos).length +
      s.erasures n e ≤ rsChecks e.twin - 1 →
    ∃ t, exec (.readDataDecode n i errs) s = .next t ∧
      (∃ r, (t.chan.get n).st.respq = ((s.chan.get n).st.respq ++
        [{ idx := e.idx, mod := portMod e.gport, epoch := e.epoch, port := portLocal e.gport, tag := e.tag, opc := 0x01,
           status := 0, poison := true, cls := e.cls, at_ := e.at_, dsz := 3, data := 0 }]) ++ r ∧
        ∀ x ∈ r, x.opc = 0x01) ∧
      (t.chan.get n).cnt.poisonRd = (s.chan.get n).cnt.poisonRd + 1 ∧ t.hlm = s.hlm ∧ t.dram = s.dram) ∧
  (∀ (n : Ch) (i : EntryIx) (e : Entry) (errs : List SymErr) (s : State),
    (s.chan.get n).entry? i = some e → e.st = .colrd → e.retryDue = false → (s.chan.get n).unsure e.colAt = false → e.retry = false → e.kind ≠ .mrd →
    exec (.readDataDecode n i errs) s = .next
      (let q := (s.advance (e.colAt + (s.tim n).rl + 5)).classifyBurst n e errs
       if q.1.cls = .uncorrectable then
         q.2.updChan n fun c => c.updEntry i fun x => { x with retry := true, retryDue := true }
       else q.2.useWord n e q.1)) ∧
  (∀ (n : Ch) (i : EntryIx) (e : Entry) (errs : List SymErr) (s : State), (s.chan.get n).entry? i = some e →
    e.st = .colrd → e.retryDue = false → (s.chan.get n).unsure e.colAt = false → e.retry = false → e.kind = .mrd → e.purpose = .scrubRd →
    s.mgmt.scrub.running = true → s.storedPoison n e.twin e.loc = false → inArray s n e →
    (∀ x ∈ (s.chan.get n).st.tt, x.st ≠ .chain) →
    2 * (errs.filter fun x => x.xor != 0 && decide (x.pos < rsLen e.twin) && !s.onMark n e x.pos).length +
      s.erasures n e ≤ rsChecks e.twin →
    ∃ t, exec (.readDataDecode n i errs) s = .next t ∧ t.clk.now = max s.clk.now (e.colAt + (s.tim n).rl + 5) ∧
      t.mgmt.scrub.scanned = s.mgmt.scrub.scanned + 1 ∧ t.mgmt.scrub.uncorrectable = s.mgmt.scrub.uncorrectable ∧
      (∀ x ∈ (t.chan.get n).st.tt, x.idx ≠ i) ∧ t.hlm = s.hlm ∧ t.port = s.port ∧ t.dram = s.dram) ∧
  (∀ (n : Ch) (i : EntryIx) (e : Entry) (errs : List SymErr) (s : State), (s.chan.get n).entry? i = some e → e.st = .colrd →
    (s.chan.get n).unsure e.colAt = true → exec (.readDataDecode n i errs) s = .next s)

/-- A whole write whose burst has ended stands in the core dies, or in its spare line where one serves the line; its
entry is free, its data are kept for a command error that may ask for them, and the reservations are those that its
place in the order has left. Clauses that rest on the model's choices follow log entry 2. -/
def Obligations.WriteReachesStore : Prop :=
  (∀ (n : Ch) (i : EntryIx) (e : Entry) (s : State), (s.chan.get n).entry? i = some e → e.idx = i → e.st = .colwr →
    e.purpose = .host → e.poison = false → (s.chan.get n).spareOf e = none → inArray s n e →
    (s.chan.get n).unsure e.colAt = false →
    ∃ t, exec (.writeBurstDone n i) s = .next t ∧
      t.clk.now = max s.clk.now (e.colAt + (s.tim n).wl + 2) ∧
      t.dram = (s.writeStored n e.twin e.loc e.data).dram ∧
      t.poisonLines = (s.writeStored n e.twin e.loc e.data).poisonLines ∧
      (∀ x ∈ (t.chan.get n).st.tt, x.idx ≠ i) ∧ (e, t.clk.now) ∈ (t.chan.get n).st.kept ∧
      ((∀ x ∈ (s.chan.get n).st.tt, x.st ≠ .chain) →
        (∀ v ∈ (s.chan.get n).st.rsvEvs, v.idx = some i → v.op = .store ∧ v.done = none) →
        (t.chan.get n).rsvNow = (s.chan.get n).rsvNow) ∧
      t.hlm = s.hlm ∧ t.port = s.port ∧ ∀ k, k ≠ n → t.chan.get k = s.chan.get k) ∧
  (∀ (n : Ch) (i : EntryIx) (j : Fin 16) (e : Entry) (s : State), (s.chan.get n).entry? i = some e → e.idx = i →
    e.st = .sram → e.purpose = .host → e.isWrite = true → (s.chan.get n).spareOf e = some j →
    ∃ t, exec (.writeBurstDone n i) s = .next t ∧
      ((∀ x ∈ (s.chan.get n).st.tt, x.st ≠ .chain) →
        ((t.chan.get n).remap.get j).data = e.data ∧ ((t.chan.get n).remap.get j).st = .live) ∧ (∀ x ∈ (t.chan.get n).st.tt, x.idx ≠ i) ∧ t.dram = s.dram ∧
      t.hlm = s.hlm ∧ ∀ k, k ≠ n → t.chan.get k = s.chan.get k)

/-- The operations of the atomic unit, as values. The atomic unit on a line in the line buffer: an AMO answers with
the old operand and stores the new one in the slot; an STC stores and answers 0 exactly where at its place in the
order its port holds a reservation on the line; a merge writes the bytes of its mask and ends its entry. A slot whose
words are uncorrectable, found at the operation or by the upset of the same CC, is poison: the operation stores
nothing and answers poison, but a write of the whole line makes the line good. On a LIVE spare line that decodes the
operation works on the spare line. Clauses that rest on the model's choices follow log entries 6 and 52. -/
def Obligations.Atomics : Prop :=
  (∀ (w : Nat) (m a x : BitVec w),
     amoResult 0 m a x = some (m + a) ∧ amoResult 1 m a x = some a ∧ amoResult 2 m a x = some (m &&& a) ∧
     amoResult 3 m a x = some (m ||| a) ∧ amoResult 4 m a x = some (m ^^^ a) ∧
     (∃ v, amoResult 5 m a x = some v ∧ v.toInt = min m.toInt a.toInt) ∧
     (∃ v, amoResult 6 m a x = some v ∧ v.toInt = max m.toInt a.toInt) ∧
     (∃ v, amoResult 7 m a x = some v ∧ v.toNat = min m.toNat a.toNat) ∧
     (∃ v, amoResult 8 m a x = some v ∧ v.toNat = max m.toNat a.toNat) ∧
     (m = a → amoResult 9 m a x = some x) ∧ (m ≠ a → amoResult 9 m a x = none)) ∧
  ((∀ (n : Ch) (e : Entry) (v : BitVec (aszBits e.asz)) (errs : List SymErr) (s : State), (s.chan.get n).unitEntry = some e → e.st = .lb →
     e.kind = .amo →
     amoResult e.aop (((s.chan.get n).st.lb.get (Fin.ofNat 16 e.lb.toNat)).data.extractLsb' e.bitOff (aszBits e.asz))
       (e.data.extractLsb' 0 (aszBits e.asz)) (e.data.extractLsb' (aszBits e.asz) (aszBits e.asz)) = some v →
     ((s.chan.get n).st.lb.get (Fin.ofNat 16 e.lb.toNat)).poison = false →
     ∃ t, exec (.atomicUnitOp ⟨n, false, errs, .none⟩) s = .next t ∧
       ((t.chan.get n).st.lb.get (Fin.ofNat 16 e.lb.toNat)).data =
         putBits ((s.chan.get n).st.lb.get (Fin.ofNat 16 e.lb.toNat)).data e.bitOff v ∧
       ((t.chan.get n).st.lb.get (Fin.ofNat 16 e.lb.toNat)).dirty = true ∧
       (∃ r, (t.chan.get n).st.respq = ((s.chan.get n).st.respq ++
         [{ idx := e.idx, mod := portMod e.gport, epoch := e.epoch, port := portLocal e.gport, tag := e.tag, opc := 0x03,
            status := 0, poison := false, cls := e.cls, at_ := e.at_,
            dsz := if e.nr then 0 else if aszBits e.asz = 128 then 2 else 1,
            data := if e.nr then 0 else (((s.chan.get n).st.lb.get (Fin.ofNat 16 e.lb.toNat)).data.extractLsb' e.bitOff
              (aszBits e.asz)).setWidth 1024 }]) ++ r ∧ ∀ x ∈ r, x.opc = 0x01) ∧
       t.hlm = s.hlm ∧ t.port = s.port ∧ t.dram = s.dram ∧ ∀ k, k ≠ n → t.chan.get k = s.chan.get k) ∧
   (∀ (n : Ch) (e : Entry) (errs : List SymErr) (s : State), (s.chan.get n).unitEntry = some e → e.st = .lb → e.kind = .stc →
     ((s.chan.get n).st.lb.get (Fin.ofNat 16 e.lb.toNat)).poison = false →
     ∃ t, exec (.atomicUnitOp ⟨n, false, errs, .none⟩) s = .next t ∧
       (∃ r, (t.chan.get n).st.respq = ((s.chan.get n).st.respq ++
         [{ idx := e.idx, mod := portMod e.gport, epoch := e.epoch, port := portLocal e.gport, tag := e.tag, opc := 0x04,
            status := if (s.chan.get n).stcPasses e then 0 else 1, poison := false, cls := e.cls, at_ := e.at_, dsz := 0,
            data := 0 }]) ++ r ∧ ∀ x ∈ r, x.opc = 0x01) ∧
       ((t.chan.get n).st.lb.get (Fin.ofNat 16 e.lb.toNat)).data =
         (if (s.chan.get n).stcPasses e
          then putBits ((s.chan.get n).st.lb.get (Fin.ofNat 16 e.lb.toNat)).data e.bitOff (e.data.extractLsb' 0 64)
          else ((s.chan.get n).st.lb.get (Fin.ofNat 16 e.lb.toNat)).data) ∧
       (t.chan.get n).cnt.stcPass =
         (if (s.chan.get n).stcPasses e then (s.chan.get n).cnt.stcPass + 1 else (s.chan.get n).cnt.stcPass) ∧
       (t.chan.get n).cnt.stcFail =
         (if (s.chan.get n).stcPasses e then (s.chan.get n).cnt.stcFail else (s.chan.get n).cnt.stcFail + 1) ∧
       t.hlm = s.hlm ∧ t.port = s.port ∧ t.dram = s.dram ∧ ∀ k, k ≠ n → t.chan.get k = s.chan.get k) ∧
   (∀ (n : Ch) (e : Entry) (errs : List SymErr) (s : State), (s.chan.get n).unitEntry = some e → e.st = .lb → e.kind = .wrp →
     e.purpose = .host → ((s.chan.get n).st.lb.get (Fin.ofNat 16 e.lb.toNat)).poison = false →
     ∃ t, exec (.atomicUnitOp ⟨n, false, errs, .none⟩) s = .next t ∧
       ((t.chan.get n).st.lb.get (Fin.ofNat 16 e.lb.toNat)).data =
         mergeBytes ((s.chan.get n).st.lb.get (Fin.ofNat 16 e.lb.toNat)).data e.data e.mask ∧
       (∀ x ∈ (t.chan.get n).st.tt, x.idx ≠ e.idx) ∧ t.hlm = s.hlm ∧ t.dram = s.dram) ∧
   (∀ (n : Ch) (e : Entry) (u : StoreUpset) (bad : Bool) (errs : List SymErr) (s : State),
     (s.chan.get n).unitEntry = some e → e.st = .lb → e.kind = .amo →
     (bad = true ∧ u = .none ∨ u = .slot (Fin.ofNat 16 e.lb.toNat) ∧
       ((s.chan.get n).st.lb.get (Fin.ofNat 16 e.lb.toNat)).valid = true) →
     ∃ t, exec (.atomicUnitOp ⟨n, bad, errs, u⟩) s = .next t ∧
       ((t.chan.get n).st.lb.get (Fin.ofNat 16 e.lb.toNat)).data =
         ((s.chan.get n).st.lb.get (Fin.ofNat 16 e.lb.toNat)).data ∧
       ((t.chan.get n).st.lb.get (Fin.ofNat 16 e.lb.toNat)).poison = true ∧
       (∃ r, (t.chan.get n).st.respq = ((s.chan.get n).st.respq ++
         [{ idx := e.idx, mod := portMod e.gport, epoch := e.epoch, port := portLocal e.gport, tag := e.tag, opc := 0x03,
            status := 1, poison := true, cls := e.cls, at_ := e.at_,
            dsz := if e.nr then 0 else if aszBits e.asz = 128 then 2 else 1, data := 0 }]) ++ r ∧
         ∀ x ∈ r, x.opc = 0x01) ∧ t.hlm = s.hlm ∧ t.dram = s.dram) ∧
   (∀ (n : Ch) (e : Entry) (bad : Bool) (errs : List SymErr) (s : State), (s.chan.get n).unitEntry = some e → e.st = .lb →
     e.isWrite = true → e.purpose = .host → e.poison = false →
     ∃ t, exec (.atomicUnitOp ⟨n, bad, errs, .none⟩) s = .next t ∧
       ((t.chan.get n).st.lb.get (Fin.ofNat 16 e.lb.toNat)).poison = false ∧
       ((t.chan.get n).st.lb.get (Fin.ofNat 16 e.lb.toNat)).dirty = true ∧
       ((t.chan.get n).st.lb.get (Fin.ofNat 16 e.lb.toNat)).data =
         mergeBytes ((s.chan.get n).st.lb.get (Fin.ofNat 16 e.lb.toNat)).data e.data e.mask ∧
       (t.chan.get n).cnt.poisonDrop = (s.chan.get n).cnt.poisonDrop ∧ (∀ x ∈ (t.chan.get n).st.tt, x.idx ≠ e.idx) ∧
       t.hlm = s.hlm ∧ t.dram = s.dram) ∧
   (∀ (n : Ch) (e : Entry) (j : Fin 16) (v : BitVec (aszBits e.asz)) (errs : List SymErr) (s : State),
     (s.chan.get n).unitEntry = some e → e.st = .sram → e.kind = .amo → (s.chan.get n).spareOf e = some j →
     ((s.chan.get n).remap.get j).st = .live →
     2 * (errs.filter fun x => x.xor != 0 && decide (x.pos < rsLen e.twin) && !s.onMark n e x.pos).length +
       s.erasures n e ≤ rsChecks e.twin →
     amoResult e.aop (((s.chan.get n).remap.get j).data.extractLsb' e.bitOff (aszBits e.asz))
       (e.data.extractLsb' 0 (aszBits e.asz)) (e.data.extractLsb' (aszBits e.asz) (aszBits e.asz)) = some v →
     ∃ t, exec (.atomicUnitOp ⟨n, false, errs, .none⟩) s = .next t ∧
       ((∀ x ∈ (s.chan.get n).st.tt, x.st ≠ .chain) → ((t.chan.get n).remap.get j).data =
         putBits ((s.chan.get n).remap.get j).data e.bitOff v) ∧
       (∃ r, (t.chan.get n).st.respq = ((s.chan.get n).st.respq ++
         [{ idx := e.idx, mod := portMod e.gport, epoch := e.epoch, port := portLocal e.gport, tag := e.tag, opc := 0x03,
            status := 0, poison := false, cls := e.cls, at_ := e.at_,
            dsz := if e.nr then 0 else if aszBits e.asz = 128 then 2 else 1,
            data := if e.nr then 0 else (((s.chan.get n).remap.get j).data.extractLsb' e.bitOff
              (aszBits e.asz)).setWidth 1024 }]) ++ r ∧ ∀ x ∈ r, x.opc = 0x01) ∧
       t.hlm = s.hlm ∧ t.port = s.port ∧ t.dram = s.dram ∧ ∀ k, k ≠ n → t.chan.get k = s.chan.get k))

/-- The timers of an engine. Clauses that rest on the model's choices follow log entries 2, 14 and 51. -/
def Obligations.EngineTimers : Prop :=
  (∀ (n : Ch) (i : EntryIx) (s : State), exec (.entryAged n i) s = .next s) ∧
  (∀ (n : Ch) (p : Pc) (k : Cand) (s : State), Sys2Proof.Machine.minOn (·.at_) ((s.chan.get n).writeQueue p) = some k →
    (s.chan.get n).st.wmode.get p = false →
    ∃ t, exec (.writeAgeExpiry n p) s = .next t ∧
      t.clk.now = max s.clk.now (k.at_ + 64 * 2 ^ ((s.chan.get n).cfgAt s.now).wrAge.toNat + 1) ∧
      ((s.chan.get n).st.modeAt.get p ≠ some t.clk.now → t.chan = (s.updChan n fun c => c.updSt fun x =>
        { x with wmode := upd x.wmode p fun _ => true, wcount := upd x.wcount p fun _ => 0,
                 modeAt := upd x.modeAt p fun _ => some t.clk.now }).chan) ∧
      ((s.chan.get n).st.modeAt.get p = some t.clk.now → t.chan = s.chan) ∧ t.hlm = s.hlm ∧ t.dram = s.dram ∧
      t.mgmt = s.mgmt) ∧
  (∀ (n : Ch) (i : Fin 16) (s : State), ((s.chan.get n).st.lb.get i).dirty = true →
    ((s.chan.get n).st.lb.get i).wb = false → (s.chan.get n).lbBusy i = false →
    (∀ e ∈ (s.chan.get n).st.tt, e.st = .chain → ((s.chan.get n).st.lb.get i).line ≠ some e.loc) →
    exec (.lineBufferIdleExpiry n i) s =
      .next ((s.advance (((s.chan.get n).st.lb.get i).lastUse + 32)).updChan n fun c =>
        (c.updLb i fun y =>
          { y with wb := true, wbAge := c.st.ageCtr, wbAsk := max s.now (((s.chan.get n).st.lb.get i).lastUse + 32) }).updSt fun z =>
          { z with ageCtr := z.ageCtr + 1 })) ∧
  (∀ (n : Ch) (b : BankIx) (s : State), ((s.chan.get n).bank b).row.isSome = true →
    ((s.chan.get n).bank b).expired = false → (s.chan.get n).pendingHit b = false →
    exec (.pageTimeout n b) s =
      .next ((s.advance (((s.chan.get n).bank b).timerAt + ladderNs ((s.chan.get n).pageIdx b))).updBanks n fun c =>
        c.updBank b fun y => { y with expired := true })) ∧
  (∀ (n : Ch) (i : EntryIx) (e : Entry) (s : State), (s.chan.get n).entry? i = some e → e.kind = .hint →
    ∃ t, exec (.hintTimeout n i) s = .next t ∧ t.clk.now = max s.clk.now (e.at_ + 64) ∧
      t.chan.get n = { s.chan.get n with st := { (s.chan.get n).st with
        tt := (s.chan.get n).st.tt.filter (fun q => decide (q.idx ≠ i)), hwm := (t.chan.get n).st.hwm,
        freeAt := (t.chan.get n).st.freeAt } } ∧
      (∀ k, k ≠ n → t.chan.get k = s.chan.get k) ∧ t.hlm = s.hlm ∧ t.dram = s.dram ∧ t.mgmt = s.mgmt) ∧
  (∀ (n : Ch) (k : PortK) (r : Rsv) (s : State),
    (s.chan.get n).rsvNow.find? (·.port == BitVec.ofNat 9 k.val) = some r →
    exec (.reservationProtectionExpiry n k) s = .next (s.advance (r.at_ + 2000)) ∧
      r.protected (s.advance (r.at_ + 2000)).now = false) ∧
  (∀ (n : Ch) (s : State), exec (.laneMonitorWindow n) s = .next ((s.advance ((s.chan.get n).st.monAt + 1000000)).updChan n
    fun c => { (c.updSt fun x => { x with monAt := max s.now (x.monAt + 1000000) }) with
      pc := c.pc.map fun g => { g with mon := [], identified := [], refusedMark := [] } }))

/-- At a refill boundary every port's buckets fill by their rates up to their depths, and a port whose change was
asked for takes its new rates with the levels that the change mode gives; every channel has a fresh column allowance,
under the cap that arrived before the boundary, or the critical cap where that is lower and holds. A cap on its way to
a channel arrives. Clauses that rest on the model's choices follow log entry 2. A gate list in force: a cycle starts
at the next time base that is the phase modulo the cycle, with the list's first entry, or with a committed list in its
place, as it does where no list was in force; an entry ends at the time base at which its cycle started and the
durations up to its own are over, and the next comes into force. Clauses that rest on the model's choices follow log
entry 27. The commands on a channel's gate list and class marks, while its quad is powered. A write of 1s clears those
marks, each of which keeps what the same CC sampled; a commit of a valid pending list is kept, with its CC, and takes
force in the next CC where no list is enabled; a commit of an invalid list is refused. What this CC found, of the
configuration and of the guard, stays known to its scheduler. The answer stands in `lastAcc` (log entry 13). -/
def Obligations.TrafficControl : Prop :=
  ((∀ (s : State), s.clk.pllLock = true →
     ∃ t, exec .refillBoundary s = .next t ∧ t.clk.lastRefill = s.clk.lastRefill + 64 ∧
       t.clk.now = s.clk.now + (s.clk.lastRefill + 64 - s.tb) ∧
       (∀ k, (s.port.get k).applyPend = false → t.port.get k = { s.port.get k with
         tokC := min (1000 * (s.port.get k).force.cbs.toNat) ((s.port.get k).tokC + (s.port.get k).force.cir.toNat * 1024),
         tokP := min (1000 * (s.port.get k).force.pbs.toNat)
           ((s.port.get k).tokP + (s.port.get k).force.pir.toNat * 1024) }) ∧
       (∀ k, (s.port.get k).applyPend = true → (t.port.get k).force = (s.port.get k).pend ∧
         (t.port.get k).applyPend = false ∧
         ((s.port.get k).chgMode = 0 → (t.port.get k).tokC ≤ 1000 * (s.port.get k).pend.cbs.toNat ∧
           (t.port.get k).tokP ≤ 1000 * (s.port.get k).pend.pbs.toNat) ∧
         ((s.port.get k).chgMode = 1 → (t.port.get k).tokC = 1000 * (s.port.get k).pend.cbs.toNat ∧
           (t.port.get k).tokP = 1000 * (s.port.get k).pend.pbs.toNat) ∧
         ((s.port.get k).chgMode = 2 → (t.port.get k).tokC = 0 ∧ (t.port.get k).tokP = 0)) ∧
       (∀ n, t.chan.get n = (s.chan.get n).updSt fun x => { x with
         colUsed := 0, capBase := if x.capAt < s.clk.lastRefill + 64 then x.capIn else x.capBase,
         cap := if x.crit = true ∧ s.mgmt.therm.critCap.toNat <
             (if x.capAt < s.clk.lastRefill + 64 then x.capIn else x.capBase).toNat
           then s.mgmt.therm.critCap.setWidth 7
           else if x.capAt < s.clk.lastRefill + 64 then x.capIn else x.capBase }) ∧
       t.hlm = s.hlm ∧ t.map = s.map ∧ t.dram = s.dram ∧ t.mgmt = s.mgmt) ∧
   (∀ (n : Ch) (v : BitVec 7) (s : State), s.quadOn n = true → (s.chan.get n).st.capBus = some v →
     exec (.capArrival n) s = .next (s.updChan n fun c => c.updSt fun x =>
       { x with capIn := v, capAt := s.tb, capBus := none }))) ∧
  ((∀ (n : Ch) (s : State), (s.chan.get n).gate.force.en = true → s.clk.pllLock = true →
     (s.chan.get n).gate.commit = none →
     ∃ t, exec (.gateCycleStart n) s = .next t ∧ (t.chan.get n).gate.started = true ∧
       (t.chan.get n).gate.entry = (s.chan.get n).gate.force.entryAt 0 ∧
       (t.chan.get n).gate.force = (s.chan.get n).gate.force ∧ (t.chan.get n).gate.cycleAt = s.tb + (t.clk.now - s.clk.now) ∧
       startsAt (s.chan.get n).gate.force s.tb ((s.chan.get n).gate.started && (s.chan.get n).gate.cycleAt == s.tb)
         (s.tb + (t.clk.now - s.clk.now)) ∧ s.clk.now ≤ t.clk.now ∧
       (∀ k, k ≠ n → t.chan.get k = s.chan.get k) ∧
       t.hlm = s.hlm ∧ t.port = s.port ∧ t.dram = s.dram) ∧
   (∀ (n : Ch) (l : GateList) (s : State), (s.chan.get n).gate.force.en = true → s.clk.pllLock = true →
     (s.chan.get n).gate.commit = some l →
     ∃ t, exec (.gateCycleStart n) s = .next t ∧ (t.chan.get n).gate.force = l ∧ (t.chan.get n).gate.commit = none ∧
       startsAt (s.chan.get n).gate.force s.tb ((s.chan.get n).gate.started && (s.chan.get n).gate.cycleAt == s.tb)
         (s.tb + (t.clk.now - s.clk.now)) ∧ s.clk.now ≤ t.clk.now ∧
       (∀ k, k ≠ n → t.chan.get k = s.chan.get k) ∧ t.hlm = s.hlm ∧ t.port = s.port ∧ t.dram = s.dram) ∧
   (∀ (n : Ch) (l : GateList) (s : State), (s.chan.get n).gate.force.en = false → s.clk.pllLock = true →
     (s.chan.get n).gate.commit = some l → l.en = true → (s.chan.get n).gate.commitAt.1 ≤ s.now →
     ∃ t, exec (.gateCycleStart n) s = .next t ∧ (t.chan.get n).gate.force = l ∧ (t.chan.get n).gate.commit = none ∧
       (t.chan.get n).gate.started = true ∧ (t.chan.get n).gate.entry = l.entryAt 0 ∧
       (t.chan.get n).gate.cycleAt = s.tb + (t.clk.now - s.clk.now) ∧
       ((s.chan.get n).gate.commitAt.1 = s.now → startsAt l s.tb true (s.tb + (t.clk.now - s.clk.now))) ∧
       ((s.chan.get n).gate.commitAt.1 < s.now → (s.chan.get n).gate.commitAt.2 + 1 < s.tb →
         startsAt l s.tb false (s.tb + (t.clk.now - s.clk.now))) ∧
       (∀ k, k ≠ n → t.chan.get k = s.chan.get k) ∧ t.hlm = s.hlm ∧ t.port = s.port ∧ t.dram = s.dram) ∧
   (∀ (n : Ch) (s : State), (s.chan.get n).gate.force.en = true → s.clk.pllLock = true →
     (s.chan.get n).gate.started = true → (s.chan.get n).gate.entry ≠ (s.chan.get n).gate.force.last →
     (s.chan.get n).gate.force.endOf (s.chan.get n).gate.entry < (s.chan.get n).gate.force.cycle →
     ∃ t, exec (.gateEntryEnd n) s = .next t ∧
       (t.chan.get n).gate = { (s.chan.get n).gate with
         entry := (s.chan.get n).gate.force.entryAt ((s.chan.get n).gate.force.endOf (s.chan.get n).gate.entry) } ∧
       t.clk.now = s.clk.now + ((s.chan.get n).gate.cycleAt +
         ((List.range ((s.chan.get n).gate.entry.val + 1)).map fun k =>
           ((s.chan.get n).gate.force.dur.get (Fin.ofNat 16 k)).toNat).sum - s.tb) ∧
       (∀ k, k ≠ n → t.chan.get k = s.chan.get k) ∧ t.hlm = s.hlm ∧ t.port = s.port ∧ t.dram = s.dram)) ∧
  ((∀ (who : Ident) (n : Ch) (v : Word) (s : State), s.mgmtOn = true → s.quadOn n = true →
     exec (.classHwmClear who n v) s = .next (answered (s.updChan n fun c => (c.updSt fun x =>
       { x with hwm := Vector.ofFn fun i => if v.getLsbD i.val then (x.hwm.get i).clear s.now else x.hwm.get i }).noteCfg c
         s.now) (.ok 0))) ∧
   (∀ (who : Ident) (n : Ch) (v : Word) (s : State), s.mgmtOn = true → s.quadOn n = true → v.getLsbD 12 = true →
     ((gatesAsked ((s.chan.get n).gate.settle s.now) v).pend.valid = true →
       exec (.gateCommit who n v) s = .next (answered (s.updChan n fun c =>
         ({ c with gate := { gatesAsked (c.gate.settle s.now) v with
             commit := some (gatesAsked (c.gate.settle s.now) v).pend, commitAt := (s.now, s.tb) }.noteGuard c.gate s.now } :
           Chan).noteCfg c s.now) (.ok 0))) ∧
     ((gatesAsked ((s.chan.get n).gate.settle s.now) v).pend.valid = false →
       exec (.gateCommit who n v) s = .next (answered s (.err errBADFLD)))) ∧
   ∀ (g : Gates) (l : GateList) (now : Nat), g.commit = some l → g.force.en = false →
     (g.commitAt.1 < now → (g.settle now).force = l ∧ (g.settle now).commit = none) ∧ (now ≤ g.commitAt.1 → g.settle now = g))

/-- SR_ENTER that passes the checks takes a read credit and a tag, closes its module to further requests and, with no
scrub pass and no requalification sweep to end, starts the entry to Chrysalis in deferral; its acceptance closes each
module that it reaches. A drain of a port sends the port's held refusals whose writes have drained, and starts the
port's CFG access. Clauses that rest on the model's choices follow log entry 16. -/
def Obligations.SrEnterDrains : Prop :=
  (∀ (m : Mod) (hd : ReqHdr) (s : State), Arrives s m (reqMsg 0x3E hd 0) → s.mgmt.scrub.running = false →
    (∀ n, ((s.chan.get n).pc.get 0).requal = none ∧ ((s.chan.get n).pc.get 1).requal = none) → s.pwr.ph = .none →
    exec (.srEnter m ⟨hd, false⟩) s = .next ((s.updHlm m fun h =>
      { h with crRead := h.crRead - 1, seq := h.seq + 1, tags := h.tags ++ [tagOf s m (reqMsg 0x3E hd 0) none],
               srBlocked := true, srTag := some (hd.port, hd.tag) }).updPwr fun p =>
      { p with from_ := p.state, target := 2, ph := .defer, bySr := true, deferAt := s.now, state := .toChrysalis, stirAt := s.now })) ∧
  (∀ (m : Mod) (s : State), s.pwr.bySr = true →
    exec (.srEnterAcceptanceArrival m) s = .next (s.updHlm m fun h => { h with srBlocked := true })) ∧
  (∀ (m : Mod) (p : BitVec 4) (s : State), (s.hlm.get m).cfgq.find? (·.port == p) = none →
    exec (.portDrainComplete m p) s = .next (s.updHlm m fun h => { h with
      errs := h.errs.filter fun e => e.port != p || h.postedBefore p e.seq,
      txq := h.txq ++ (h.errs.filter fun e => e.port == p && !h.postedBefore p e.seq).map fun e =>
        { outMsg 0x08 e.port e.tag with status := e.code, aux := e.aux, retire := e.retire } })) ∧
  (∀ (m : Mod) (p : BitVec 4) (c : CfgReq) (s : State), (s.hlm.get m).errs = [] →
    (s.hlm.get m).cfgq.find? (·.port == p) = some c → c.started = false → c.held = false →
    (s.hlm.get m).postedBefore p c.seq = false → s.mgmtOn = true →
    exec (.portDrainComplete m p) s = .next ((s.updHlm m fun h => { h with
      cfgq := h.cfgq.map fun q => if q = c then { q with started := true } else q }).access
        { who := portIdent m p, org := .inband m c.seq, off := c.off, wr := if c.write then some c.v else none }))

/-- A unit's tick comes at its phase of the interval and raises its debt by 1; the unit's next ticks use the
multiplier then in force. A TMP that is due joins those to be sent. A valid reading raises m_temp at once, and lets it
fall by a factor of 2 after four readings in a row that are cool enough, any other one starting the row anew; a failed
one sets it to 4 and is reported; one that a command error makes uncertain is not used. A burst in the power-down of
Pupa starts with PDX when a unit has reached 7, and at its end every unit in use of the pseudo-channel is at -8 and
PDE follows. Clauses that rest on the model's choices follow log entries 2 and 15. At an epoch boundary of a bank its
valid entries become sweep entries, its sweep entries stay so, the others are free, and S is 0. A sweep entry of 4 us
is owed a TRF. A drain ends with an empty tracker; a parity error costs the entries that fail, one at least, each of
them counted, and starts a drain. Clauses that rest on the model's choices follow log entries 2 and 17. -/
def Obligations.RefreshAndTrackers : Prop :=
  ((∀ (a off iv : Nat), 0 < iv → a ≤ nextPhase a off iv ∧ nextPhase a off iv < a + iv ∧
     nextPhase a off iv % iv = off % iv) ∧
   (∀ (n : Ch) (b : BankIx) (s : State), s.refreshes n = true → (s.chan.get n).unitOf b = b → (bankSid b).val < s.map.nsid →
     (s.chan.get n).dieRefreshes b = false → 0 < (s.tim n).tREFIeff ((s.chan.get n).rf.mult.get b) →
     ∃ t, exec (.refreshTick n b) s = .next t ∧
       t.clk.now = s.clk.now + (nextPhase (max s.tb ((s.chan.get n).rf.tickFrom.get b))
         ((s.chan.get n).tickOff b ((s.tim n).tREFIeff ((s.chan.get n).rf.mult.get b)))
         ((s.tim n).tREFIeff ((s.chan.get n).rf.mult.get b)) - s.tb) ∧
       (t.chan.get n).rf.debt.get b = (s.chan.get n).rf.debt.get b + 1 ∧
       (t.chan.get n).rf.mult.get b = s.mult n (bankSid b) ∧
       ((t.chan.get n).rf.owed.get b).length = ((s.chan.get n).rf.owed.get b).length +
         (if 1 ≤ (t.chan.get n).rf.debt.get b then 1 else 0) ∧
       (∀ k, k ≠ b → (t.chan.get n).rf.debt.get k = (s.chan.get n).rf.debt.get k) ∧
       sameWatched { s.chan.get n with rf := (t.chan.get n).rf } (t.chan.get n) ∧
       (∀ k, k ≠ n → t.chan.get k = s.chan.get k) ∧ t.hlm = s.hlm ∧ t.port = s.port ∧ t.mgmt = s.mgmt ∧ t.dram = s.dram) ∧
   (∀ (n : Ch) (i : SidIx) (s : State), s.refreshes n = true → (s.chan.get n).st.pwr = .active → i.val < s.map.nsid →
     (s.chan.get n).rf.tmpDue.contains i = false →
     ∃ t, exec (.tmpDue n i) s = .next t ∧ (t.chan.get n).rf.tmpDue = (s.chan.get n).rf.tmpDue ++ [i] ∧
       s.clk.now ≤ t.clk.now ∧ (∀ k, k ≠ n → t.chan.get k = s.chan.get k) ∧ t.hlm = s.hlm ∧ t.dram = s.dram ∧
       t.mgmt = s.mgmt) ∧
   (∀ (n : Ch) (i : SidIx) (u : BitVec 512) (v : BitVec 8) (s : State), AwaitsTmp s n i →
     burstValue u = some v → v ≠ 0x80 →
     ∃ t, exec (.tmpReading n i u) s = .next t ∧ (t.chan.get n).rf.tmpSent = (s.chan.get n).rf.tmpSent.erase i ∧
       (t.chan.get n).rf.temp.get i = v ∧ (t.chan.get n).rf.tmpFail.get i = false ∧
       ((s.chan.get n).rf.direct.get i = true ∨ (s.chan.get n).rf.mTemp.get i < rateOf v.toInt →
         (t.chan.get n).rf.mTemp.get i = rateOf v.toInt) ∧
       ((s.chan.get n).rf.direct.get i = false →
         ((s.chan.get n).rf.mTemp.get i = 2 ∧ v.toInt ≤ 82 ∨ (s.chan.get n).rf.mTemp.get i = 4 ∧ v.toInt ≤ 92) →
         (t.chan.get n).rf.mTemp.get i = (if (s.chan.get n).rf.fallCnt.get i < 3 then (s.chan.get n).rf.mTemp.get i
           else (s.chan.get n).rf.mTemp.get i / 2) ∧
         (t.chan.get n).rf.fallCnt.get i =
           (if (s.chan.get n).rf.fallCnt.get i < 3 then (s.chan.get n).rf.fallCnt.get i + 1 else 0)) ∧
       ((s.chan.get n).rf.direct.get i = false → rateOf v.toInt ≤ (s.chan.get n).rf.mTemp.get i →
         ¬ ((s.chan.get n).rf.mTemp.get i = 2 ∧ v.toInt ≤ 82 ∨ (s.chan.get n).rf.mTemp.get i = 4 ∧ v.toInt ≤ 92) →
         (t.chan.get n).rf.mTemp.get i = (s.chan.get n).rf.mTemp.get i ∧ (t.chan.get n).rf.fallCnt.get i = 0) ∧
       (∀ k, k ≠ n → (t.chan.get k).rf = (s.chan.get k).rf) ∧ t.hlm = s.hlm ∧ t.port = s.port ∧ t.dram = s.dram) ∧
   (∀ (n : Ch) (i : SidIx) (u : BitVec 512) (s : State), AwaitsTmp s n i →
     (burstValue u = none ∨ burstValue u = some 0x80) →
     ∃ t, exec (.tmpReading n i u) s = .next t ∧ (t.chan.get n).rf.tmpSent = (s.chan.get n).rf.tmpSent.erase i ∧
       (t.chan.get n).rf.temp.get i = 0x80 ∧ (t.chan.get n).rf.tmpFail.get i = true ∧ (t.chan.get n).rf.mTemp.get i = 4 ∧
       (t.chan.get n).rf.direct.get i = true ∧
       t.mgmt.occq = s.mgmt.occq ++ [{ e := evTherm n, cause := 4, detA := tempDet 0x80 (some i), detB := 0,
                                       tb := t.clk.timeBase }] ∧
       (∀ k, k ≠ n → t.chan.get k = s.chan.get k) ∧ t.hlm = s.hlm ∧ t.port = s.port ∧ t.dram = s.dram) ∧
   (∀ (n : Ch) (i : SidIx) (u : BitVec 512) (p : Issued) (s : State), (∀ q ∈ (s.chan.get n).st.mrSent, q.1 ≠ i) →
     ((s.chan.get n).st.hist.filter fun p => p.op == .tmp && p.loc.sidIx == i).getLast? = some p →
     (s.chan.get (s.map.server n)).unsure p.at_ = true → exec (.tmpReading n i u) s = .next s) ∧
   (∀ (n : Ch) (p : Pc) (b : BankIx) (s : State),
     (s.pwr.state = .pupa ∨ s.pwr.state = .toChrysalis ∧ s.pwr.from_ = .pupa) → (s.chan.get n).st.pwr = .powerDown →
     s.refreshes n = true → b ∈ (s.chan.get n).units s.map.nsid → bankPc b = p → 7 ≤ (s.chan.get n).rf.debt.get b →
     ∃ t, exec (.pupaRefreshBurstStart n p) s = .next t ∧
       (t.chan.get n).rf = { (s.chan.get n).rf with burst := upd (s.chan.get n).rf.burst p fun _ => true } ∧
       ((s.chan.get n).inBurst = false → ∃ x ∈ (t.chan.get n).st.hist, x.op = .pdx ∧ s.clk.now ≤ x.at_) ∧
       (t.chan.get n).st.tt = (s.chan.get n).st.tt ∧ (t.chan.get n).cnt = (s.chan.get n).cnt ∧
       (∀ k, k ∉ s.map.reach n → t.chan.get k = s.chan.get k) ∧ t.hlm = s.hlm ∧ t.dram = s.dram ∧ t.mgmt = s.mgmt) ∧
   (∀ (n : Ch) (p : Pc) (s : State), (s.chan.get n).rf.burst.get p = true → (s.chan.get n).st.pwr = .powerDown →
     (s.chan.get n).cfg.refAllBank = false → s.map.isFollower n = false →
     ∃ t, exec (.pupaRefreshBurstDone n p) s = .next t ∧ (t.chan.get n).rf.burst.get p = false ∧
       (∀ b, (t.chan.get n).rf.debt.get b =
         if (bankSid b).val < s.map.nsid ∧ bankPc b = p then -8 else (s.chan.get n).rf.debt.get b) ∧
       ((t.chan.get n).inBurst = false → ∃ x ∈ (t.chan.get n).st.hist, x.op = .pde ∧ s.clk.now ≤ x.at_) ∧
       (t.chan.get n).st.tt = (s.chan.get n).st.tt ∧
       (∀ k, k ∉ s.map.reach n → t.chan.get k = s.chan.get k) ∧ t.hlm = s.hlm ∧ t.dram = s.dram)) ∧
  ((∀ (n : Ch) (b : BankIx) (s : State), s.clk.pllLock = true → 0 < (s.tim n).ck 26 →
     ∃ t, exec (.trackerEpochBoundary n b) s = .next t ∧ ((t.chan.get n).trk b).s = 0 ∧
       ((t.chan.get n).trk b).ents.map (·.row) = ((s.chan.get n).trk b).ents.map (·.row) ∧
       ((t.chan.get n).trk b).ents.map (·.sweep) =
         ((s.chan.get n).trk b).ents.map (fun e => e.sweep || ((s.chan.get n).trk b).valid e) ∧
       (∀ e ∈ ((t.chan.get n).trk b).ents, e.sweep = true ∨ e.v = 0) ∧
       (∀ e ∈ ((t.chan.get n).trk b).ents, e ∈ ((s.chan.get n).trk b).ents ∨ e.sweepAt = t.clk.now ∨ e.v = 0) ∧
       (∀ k, k ≠ b → (t.chan.get n).trk k = (s.chan.get n).trk k) ∧ (∀ k, k ≠ n → t.chan.get k = s.chan.get k) ∧
       t.hlm = s.hlm ∧ t.dram = s.dram ∧ t.mgmt = s.mgmt) ∧
   (∀ (n : Ch) (b : BankIx) (e : TrkEnt) (s : State),
     Sys2Proof.Machine.minOn (·.sweepAt) (((s.chan.get n).trk b).ents.filter (·.sweep)) = some e →
     (∀ r ∈ (s.chan.get n).rf.trf, r.bank = b → r.why ≠ .sweep) →
     ∃ t, exec (.sweepDeadline n b) s = .next t ∧ e.sweepAt + 4000 ≤ t.clk.now ∧
       (∀ u, ((s.chan.get n).trk b).lastSweepDl = some u → u + 4000 ≤ t.clk.now) ∧
       (t.chan.get n).rf.trf = (s.chan.get n).rf.trf ++ [{ bank := b, row := e.row, why := .sweep, at_ := t.clk.now }] ∧
       ((t.chan.get n).trk b).ents = ((s.chan.get n).trk b).ents ∧ (∀ k, k ≠ n → t.chan.get k = s.chan.get k) ∧
       t.hlm = s.hlm ∧ t.dram = s.dram ∧ t.mgmt = s.mgmt) ∧
   (∀ (n : Ch) (b : BankIx) (s : State), ((s.chan.get n).trk b).drain = true →
     (∀ e ∈ ((s.chan.get n).trk b).ents, e.sweep = false ∧ ((s.chan.get n).trk b).valid e = false) →
     exec (.trackerDrainDone n b) s = .next (s.updChan n fun c => c.updTrk b fun k =>
       { k with ents := [], s := 0, drain := false, drainTrf := 0 })) ∧
   (∀ (n : Ch) (b : BankIx) (s : State), ((s.chan.get n).trk b).drain = false → ((s.chan.get n).trk b).ents ≠ [] →
     ∃ t, exec (.trackerDrainDone n b) s = .next t ∧ ((t.chan.get n).trk b).drain = true ∧
       ((t.chan.get n).trk b).ents.length < ((s.chan.get n).trk b).ents.length ∧
       (t.chan.get n).cnt.trkPerr = (s.chan.get n).cnt.trkPerr +
         BitVec.ofNat 32 (((s.chan.get n).trk b).ents.length - ((t.chan.get n).trk b).ents.length) ∧
       (∀ e ∈ ((t.chan.get n).trk b).ents, e ∈ ((s.chan.get n).trk b).ents) ∧ (∀ k, k ≠ n → t.chan.get k = s.chan.get k) ∧
       t.hlm = s.hlm ∧ t.dram = s.dram))

/-- A pause, from its slot to its end. A slot comes at its phase of the 16 ms and closes its pseudo-channel, or both
of the channel where it is a 16th one, where the pause holds no more than eight with those that are offline; else it
waits, ahead of urgent ones; a pause that waits starts when it may. A closed pseudo-channel is measured and its
entries are held; the results come into force at the end, when it opens again; no lane changes before. A lane whose
measurements agree takes the mean of their centres, and goes over to its other sampler where that one's eye is wider
by 4 taps. A requalified lane loses its mark. Clauses that rest on the model's choices follow log entry 24. -/
def Obligations.RecalPauses : Prop :=
  (∀ (n : Ch) (p : Pc) (whole : Bool) (s : State), TakesSlot s n → whole = decide (p = 0 ∧
      nextPhase (max s.tb ((s.chan.get n).pc.get p).slotFrom) ((2 * n.val + p.val) * 125000) 16000000 / 16000000 % 16 = n.val % 16) →
    (∀ q, q = p ∨ whole = true → ((s.chan.get n).pc.get q).pause = .none) →
    s.offlineCount + (if whole then 2 else 1) * (s.map.reach n).length ≤ 8 →
      ∃ t, exec (.recalPauseStart n p) s = .next t ∧
        (∀ q, ((t.chan.get n).pc.get q).pause =
          if q = p ∨ whole = true then .closing else ((s.chan.get n).pc.get q).pause) ∧
        ((t.chan.get n).pc.get p).chPause = whole ∧
        t.clk.now = s.clk.now + (nextPhase (max s.tb ((s.chan.get n).pc.get p).slotFrom) ((2 * n.val + p.val) * 125000) 16000000 - s.tb) ∧
        (t.chan.get n).cnt.pause = (s.chan.get n).cnt.pause + 1 ∧
        (∀ k, k ∉ s.map.reach n → sameWatched (s.chan.get k) (t.chan.get k)) ∧ t.hlm = s.hlm ∧ t.dram = s.dram ∧
        t.mgmt = s.mgmt) ∧
  (∀ (n : Ch) (p : Pc) (whole : Bool) (s : State), TakesSlot s n → whole = decide (p = 0 ∧
      nextPhase (max s.tb ((s.chan.get n).pc.get p).slotFrom) ((2 * n.val + p.val) * 125000) 16000000 / 16000000 % 16 = n.val % 16) →
    ((∃ q, (q = p ∨ whole = true) ∧ ((s.chan.get n).pc.get q).pause ≠ .none) ∨
        8 < s.offlineCount + (if whole then 2 else 1) * (s.map.reach n).length) →
      ∃ t, exec (.recalPauseStart n p) s = .next t ∧
        t.mgmt = { s.mgmt with fw := { s.mgmt.fw with
          urgent := waitPause s.mgmt.fw.urgent { n := n, pc := if whole then none else some p, sched := true } } } ∧
        (∀ q, ((t.chan.get n).pc.get q).pause = ((s.chan.get n).pc.get q).pause) ∧
        (t.chan.get n).cnt = (s.chan.get n).cnt ∧ (∀ k, k ≠ n → sameWatched (s.chan.get k) (t.chan.get k)) ∧
        t.hlm = s.hlm ∧ t.dram = s.dram) ∧
  (∀ (r : PauseReq) (l : List PauseReq) (s : State), s.mgmt.fw.urgent = r :: l → s.pwr.inImago = true →
    s.mayPause r.n r.pc = true → (s.chan.get r.n).st.pwr = .active →
    ∃ t, exec .urgentPauseStart s = .next t ∧ t.mgmt.fw.urgent = l ∧
      (∀ p, ((t.chan.get r.n).pc.get p).pause =
        if r.pc = none ∨ r.pc = some p then .closing else ((s.chan.get r.n).pc.get p).pause) ∧
      (t.chan.get r.n).cnt.pause = (s.chan.get r.n).cnt.pause + 1 ∧
      (∀ k, k ∉ s.map.reach r.n → sameWatched (s.chan.get k) (t.chan.get k)) ∧ t.hlm = s.hlm ∧ t.dram = s.dram) ∧
  (∀ (n : Ch) (p : Pc) (s : State), s.map.isFollower n = false → ((s.chan.get n).pc.get p).chPause = false →
    s.pcClosed n p = true →
    ∃ t, exec (.pauseClosed n p) s = .next t ∧ ((t.chan.get n).pc.get p).pause = .measure ∧
      (∀ e ∈ (t.chan.get n).st.tt, e.loc.pcIx = p → e.st ≠ .wait ∧ e.st ≠ .hit) ∧
      (t.chan.get n).st.tt.map (·.idx) = (s.chan.get n).st.tt.map (·.idx) ∧
      (∀ k, k ∉ s.map.reach n → sameWatched (s.chan.get k) (t.chan.get k)) ∧ t.hlm = s.hlm ∧ t.dram = s.dram ∧ t.mgmt = s.mgmt) ∧
  (∀ (n : Ch) (p : Pc) (ms cms : List LaneMeas) (s : State), ((s.chan.get n).pc.get p).pause = .measure →
    ∃ t, exec (.pauseMeasurementDone n p ms cms) s = .next t ∧ ((t.chan.get n).pc.get p).pause = .apply ∧
      ((t.chan.get n).pc.get p).newLanes.isSome = true ∧
      ((t.chan.get n).pc.get p).lanes = ((s.chan.get n).pc.get p).lanes ∧ (t.chan.get n).cmdLane = (s.chan.get n).cmdLane ∧
      (∀ k, k ≠ n → t.chan.get k = s.chan.get k) ∧ t.hlm = s.hlm ∧ t.port = s.port ∧ t.dram = s.dram) ∧
  (∀ (l : Lane) (m : LaneMeas) (a b c d : Eye) (bm : Nat), l.samplerB = false →
    (trackEye l.eyeA m.a).1 = some (a, b) → (trackEye l.eyeB m.b).1 = some (c, d) →
    (l.measured m true bm).bad = 0 ∧ (l.measured m true bm).lane.disagree = 0 ∧
    (l.measured m true bm).lane.txTap = l.txTap ∧
    (min (eyeWidth c) (eyeWidth d) < min (eyeWidth a) (eyeWidth b) + 4 →
      (l.measured m true bm).lane.samplerB = false ∧ (l.measured m true bm).lane.rxTap.toNat =
        (if (eyeCentre a + eyeCentre b) % 2 = 1 ∧ (eyeCentre a + eyeCentre b) / 2 < l.rxTap.toNat
          then (eyeCentre a + eyeCentre b) / 2 + 1 else (eyeCentre a + eyeCentre b) / 2) % 64) ∧
    (min (eyeWidth a) (eyeWidth b) + 4 ≤ min (eyeWidth c) (eyeWidth d) →
      (l.measured m true bm).lane.samplerB = true ∧
      ((eyeCentre c + eyeCentre d) % 2 = 0 →
        (l.measured m true bm).lane.rxTap.toNat = (eyeCentre c + eyeCentre d) / 2 % 64))) ∧
  (∀ (n : Ch) (p : Pc) (s : State), s.map.isJoined n = false → ((s.chan.get n).pc.get p).chPause = false →
    ((s.chan.get n).pc.get p).pause = .apply → ((s.chan.get n).pc.get p).sel = none →
    ∃ t, exec (.pauseEnd n p) s = .next t ∧ ((t.chan.get n).pc.get p).pause = .none ∧
      ((t.chan.get n).pc.get p).lanes =
        ((((s.chan.get n).pc.get p).newLanes.getD ((s.chan.get n).pc.get p).lanes).map (·.takeSel)) ∧
      (∀ e ∈ (t.chan.get n).st.tt, e.loc.pcIx = p → e.st ≠ .hold) ∧
      (∀ k, k ≠ n → sameWatched (s.chan.get k) (t.chan.get k)) ∧ t.hlm = s.hlm ∧ t.dram = s.dram ∧ t.mgmt = s.mgmt) ∧
  (∀ (n : Ch) (p : Pc) (lane : Fin 36) (i : Fin 2) (s : State), ((s.chan.get n).pc.get p).requal = some lane →
    s.map.nrow * s.map.nsid * 256 ≤ ((s.chan.get n).pc.get p).requalNext →
    ((s.chan.get n).pc.get p).requalWait = [] → s.mgmt.fw.st ≠ .restarting →
    (∀ e ∈ (s.chan.get (s.map.server n)).st.tt, e.purpose = .host) →
    (((s.chan.get n).pc.get p).spares.get i).en = true → (((s.chan.get n).pc.get p).spares.get i).lane.toNat = lane.val →
    ∃ t, exec (.requalSweepDone n p lane) s = .next t ∧ ((t.chan.get n).pc.get p).requal = none ∧
      ((t.chan.get n).pc.get p).marks = ((s.chan.get n).pc.get p).marks &&& ~~~(BitVec.twoPow 36 lane.val) ∧
      (t.chan.get n).st = (s.chan.get n).st ∧ (∀ k, k ≠ n → t.chan.get k = s.chan.get k) ∧ t.hlm = s.hlm ∧
      t.port = s.port ∧ t.dram = s.dram)

/-- CAERR_n falling is counted and starts the recovery of the engine that serves the channel, and a second one within
1 ms starts the command-lane flow; one that falls in an engine recovery, or that a PREab at the end of one has raised,
loses the channel. Its rise makes the frames of the last 12 ns uncertain; at the end of the wait every row is closed,
by eight PREab, the parity latch of each die is cleared by an MRW of 0x7C, and the engine runs again. A watchdog or an
illegal control state starts an engine recovery, whose end closes every row by eight PREab, one after another, once a
row has stayed as long as its writes need, and asks for a firmware record; a second one within 1 s loses the channel.
Clauses that rest on the model's choices follow log entries 2 and 34. A channel reset ends with its dies out of self-
refresh and every debt 0, and its command is answered OK. Where the retention test fails, the channel stays in reset
and is trained again in full; where that fails too the answer is FAULT, the channel being a hole from then on. Clauses
that rest on the model's choices follow log entry 18. An uncorrectable table entry: at the first notice the entry is
freed, the event is raised and every other module has its notice to come; the module that holds the tag answers it
with ERROR HWFAULT and the low address bits of its request. A notice on its way is consumed. -/
def Obligations.EngineRecovery : Prop :=
  ((∀ (n : Ch) (s : State), s.quadOn n = true → (s.chan.get (s.map.server n)).st.recov = .none →
     (∀ u, (s.chan.get (s.map.server n)).st.step3 = some u → u + 12 < s.now) →
     ∃ t, exec (.caerrAssert n) s = .next t ∧ (t.chan.get n).cnt.caerr = (s.chan.get n).cnt.caerr + 1 ∧
       (t.chan.get (s.map.server n)).st.recov = .caerr s.now ∧
       ((∃ u ∈ (s.chan.get n).caerrTimes, s.now < u + 1000000) → (t.chan.get n).cmdFlow = true) ∧
       (∀ k, k ≠ n → k ≠ s.map.server n → t.chan.get k = s.chan.get k) ∧ t.hlm = s.hlm ∧ t.port = s.port ∧
       t.dram = s.dram) ∧
   (∀ (n : Ch) (u : Nat) (s : State), s.quadOn n = true →
     ((s.chan.get (s.map.server n)).st.recov = .engine u ∨ (s.chan.get (s.map.server n)).st.recov = .none ∧
       (s.chan.get (s.map.server n)).st.step3 = some u ∧ s.now ≤ u + 12) →
     ∃ t, exec (.caerrAssert n) s = .next t ∧ t.map.lost.getLsbD (s.map.server n).val = true ∧
       (∀ k ∈ s.map.reach (s.map.server n), t.map.hole.getLsbD k.val = true ∧ (t.chan.get k).st.tt = []) ∧ t.port = s.port ∧
       t.dram = s.dram) ∧
   (∀ (n : Ch) (f : Nat) (s : State), (s.chan.get (s.map.server n)).st.recov = .caerr f →
     exec (.caerrDeassert n) s = .next (s.updChan (s.map.server n) fun c => c.updSt fun x =>
       { x with recov := .caerrWait f s.now, uncertain := x.hist.filter fun p => decide (f ≤ p.at_ + 12) })) ∧
   (∀ (n : Ch) (f r : Nat) (s : State), (s.chan.get (s.map.server n)).st.recov = .caerrWait f r →
     ∃ t, exec (.caerrRecoveryWaitDone n) s = .next t ∧ (t.chan.get (s.map.server n)).st.recov = .none ∧
       (t.chan.get (s.map.server n)).st.uncertain = [] ∧ r + 2 ≤ t.clk.now ∧ s.clk.now ≤ t.clk.now ∧
       (∀ b, ((t.chan.get (s.map.server n)).bank b).row = none) ∧
       12 ≤ (t.chan.get (s.map.server n)).st.hist.length ∧
       (∀ x ∈ ((t.chan.get (s.map.server n)).st.hist.reverse.take 12).drop 4, x.op = .preab ∧ s.clk.now ≤ x.at_) ∧
       (∀ x ∈ (t.chan.get (s.map.server n)).st.hist.reverse.take 4, x.op = .mrw ∧ x.addr = 0x7C ∧ x.data = 0) ∧
       (∀ k, k ∉ s.map.reach (s.map.server n) → t.chan.get k = s.chan.get k) ∧ t.hlm = s.hlm ∧ t.port = s.port ∧ t.dram = s.dram ∧ t.mgmt = s.mgmt) ∧
   (∀ (n : Ch) (s : State), s.engineRuns n = true →
     (∀ u, (s.chan.get n).st.lastRecov = some u → u + 1000000000 ≤ s.now) →
     ((s.chan.get n).anyReady = true ∨ (s.chan.get n).anyDue s.map.nsid (s.actOpen n) = true) →
     ∃ t, exec (.schedulerWatchdog n) s = .next t ∧ s.clk.now ≤ t.clk.now ∧ (s.chan.get n).st.lastCmd + 8000 ≤ t.clk.now ∧
       ((s.chan.get n).anyDue s.map.nsid (s.actOpen n) = false → t.clk.now =
         max s.clk.now (max (s.chan.get n).st.lastCmd ((s.chan.get n).st.readyAt.getD s.now) + 8000)) ∧
       ((s.chan.get n).anyReady = false → t.clk.now =
         max s.clk.now (max (s.chan.get n).st.lastCmd ((s.chan.get n).st.dueAt.getD s.now) + 8000)) ∧
       (t.chan.get n).st.recov = .engine t.clk.now ∧ (t.chan.get n).st.lastRecov = some t.clk.now ∧
       (t.chan.get n).rsvNow = [] ∧ (t.chan.get n).st.tt = (s.chan.get n).st.tt ∧
       (t.chan.get n).st.lb = (s.chan.get n).st.lb ∧ (t.chan.get n).st.banks = (s.chan.get n).st.banks ∧
       (t.chan.get n).st.respq = (s.chan.get n).st.respq ∧ (t.chan.get n).rf = (s.chan.get n).rf ∧
       (∀ k, k ≠ n → t.chan.get k = s.chan.get k) ∧ t.hlm = s.hlm ∧ t.dram = s.dram ∧ t.mgmt = s.mgmt) ∧
   (∀ (n : Ch) (s : State), s.quadOn (s.map.server n) = true →
     (∀ u, (s.chan.get (s.map.server n)).st.lastRecov = some u → u + 1000000000 ≤ s.now) →
     exec (.illegalControlState n) s = .next (s.updChan (s.map.server n) fun c => (c.noteRsv s.now .clear 0x1FF).updSt fun x =>
       { x with wmode := Vector.replicate 2 false, wcount := Vector.replicate 2 0, modeAt := Vector.replicate 2 none, ptr := 3,
                deficit := Vector.replicate 16 0, readyAt := none, dueAt := none, recov := .engine s.now,
                lastRecov := some s.now })) ∧
   (∀ (n : Ch) (u : Nat) (s : State), s.quadOn (s.map.server n) = true → (s.chan.get (s.map.server n)).st.lastRecov = some u → s.now < u + 1000000000 →
     ∃ t, exec (.illegalControlState n) s = .next t ∧ t.map.lost.getLsbD (s.map.server n).val = true ∧
       (∀ k ∈ s.map.reach (s.map.server n), t.map.hole.getLsbD k.val = true ∧ (t.chan.get k).st.tt = [] ∧
         (t.chan.get k).st.respq = []) ∧ (t.chan.get (s.map.server n)).st.pwr = .selfRefresh ∧
       (∀ m, ∀ x ∈ (t.hlm.get m).tags, x.ch = some (s.map.server n) → x.refused = true ∨ (s.hlm.get m).sending x = true) ∧
       (∀ m, ∀ x ∈ (t.hlm.get m).ingress ++ (t.hlm.get m).posted, x.ch ≠ s.map.server n) ∧
       (∀ k, k ∉ s.map.reach (s.map.server n) → t.chan.get k = s.chan.get k) ∧ t.port = s.port ∧ t.dram = s.dram) ∧
   (∀ (n : Ch) (u : Nat) (s : State), (s.chan.get n).st.recov = .engine u → s.map.isFollower n = false →
     (∀ e ∈ (s.chan.get n).st.tt, e.st ≠ .chain) → (s.chan.get n).repair = none →
     ∃ t, exec (.engineRecoveryDone n) s = .next t ∧ (t.chan.get n).st.recov = .none ∧
       max s.clk.now (u + (s.tim n).settle) + 8 ≤ t.clk.now ∧ (t.chan.get n).st.step3 = some (t.clk.now - 1) ∧
       ((s.chan.get n).st.hist = [] → (s.chan.get n).st.rowAt = none →
         t.clk.now = max s.clk.now (u + (s.tim n).settle) + 8) ∧ (∀ b, ((t.chan.get n).bank b).row = none) ∧
       (∀ k : Fin 8, ∃ x ∈ (t.chan.get n).st.hist, x.op = .preab ∧ x.loc.bank.val = 16 * k.val ∧
         max s.clk.now (u + (s.tim n).settle) + k.val ≤ x.at_ ∧ x.at_ < t.clk.now) ∧
       (∀ e ∈ (t.chan.get n).st.tt, e.st ≠ .colrd ∧ e.st ≠ .colwr ∧ e.st ≠ .hit) ∧
       t.mgmt.fw.recNotes = s.mgmt.fw.recNotes ++ [n] ∧ (∀ k, k ∉ s.map.reach n → t.chan.get k = s.chan.get k) ∧ t.hlm = s.hlm ∧
       t.dram = s.dram)) ∧
  ((∀ (n : Ch) (k : Mb) (tag : BitVec 2) (c : FwCmd) (s : State), s.map.isJoined n = false →
     (s.chan.get n).inReset = true → s.quadOn n = true → (s.chan.get n).resetBy = [(k, tag)] → (s.mb k).cmds.find? (·.tag = tag) = some c →
     (s.chan.get n).st.pwr = .selfRefresh → s.pwr.trip = false →
     ∃ t, exec (.channelResetDone n true) s = .next t ∧ (t.chan.get n).inReset = false ∧ (t.chan.get n).resetBy = [] ∧
       (t.chan.get n).st.pwr = .active ∧ (∀ b, (t.chan.get n).rf.debt.get b = 0) ∧
       (t.mb k).answers = (s.mb k).answers ++ [{ opcode := cmdOpcode c.word, tag := tag, status := 0, result := 0 }] ∧
       (t.mb k).cmds = (s.mb k).cmds.filter (fun x => decide (x.tag ≠ tag)) ∧ t.map = s.map ∧
       (t.chan.get n).train = (if (s.chan.get n).train = 1 then 2 else (s.chan.get n).train) ∧
       (∀ j, j ≠ n → t.chan.get j = s.chan.get j) ∧ (∀ j, j ≠ k → t.mb j = s.mb j) ∧ t.hlm = s.hlm ∧ t.dram = s.dram) ∧
   (∀ (n : Ch) (s : State), s.map.isJoined n = false → (s.chan.get n).inReset = true → s.quadOn n = true →
     (s.chan.get n).train ≠ 1 →
     exec (.channelResetDone n false) s = .next (s.updChan n fun c => { c with train := 1 })) ∧
   (∀ (n : Ch) (k : Mb) (tag : BitVec 2) (c : FwCmd) (s : State), s.map.isJoined n = false →
     (s.chan.get n).inReset = true → s.quadOn n = true → (s.chan.get n).train = 1 → (s.chan.get n).resetBy = [(k, tag)] → (s.mb k).cmds.find? (·.tag = tag) = some c →
     ∃ t, exec (.channelResetDone n false) s = .next t ∧ (t.chan.get n).inReset = false ∧ (t.chan.get n).train = 3 ∧
       t.map.trainFail.getLsbD n.val = true ∧ t.map.hole.getLsbD n.val = true ∧
       (t.mb k).answers = (s.mb k).answers ++ [{ opcode := cmdOpcode c.word, tag := tag, status := 0xA, result := 0 }] ∧
       (∀ j, j ≠ n → t.chan.get j = s.chan.get j) ∧ t.hlm = s.hlm ∧ t.dram = s.dram)) ∧
  ((∀ (m : Mod) (n : Ch) (i : EntryIx) (s : State), (s.chan.get n).st.notices.contains (m, i) = false →
     ((s.chan.get n).entry? i).isSome = true →
     ∃ t, exec (.entryIndexNotice m n i) s = .next t ∧ (∀ e ∈ (t.chan.get n).st.tt, e.idx ≠ i) ∧
       (t.chan.get n).st.notices.contains (m, i) = false ∧
       (∀ k, k ≠ m → (t.chan.get n).st.notices.contains (k, i) = true) ∧
       (∃ r, t.mgmt.occq = (s.mgmt.occq ++
         [{ e := evUnc n, cause := 2, detA := BitVec.ofNat 24 i.val, detB := 0, tb := s.clk.timeBase }]) ++ r ∧
         r.length ≤ 1) ∧
       (∀ x, ((s.hlm.get m).tags.find? fun q => q.ch == some n && q.idx == some i && q.owes) = some x →
         (t.hlm.get m).txq = (s.hlm.get m).txq ++ [{ outMsg 0x08 x.port x.tag with status := 9, aux := x.aux }]) ∧
       (∀ k, k ≠ n → t.chan.get k = s.chan.get k) ∧ (∀ k, k ≠ m → t.hlm.get k = s.hlm.get k) ∧ t.dram = s.dram) ∧
   (∀ (m : Mod) (n : Ch) (i : EntryIx) (x : TagRec) (s : State),
     (s.chan.get n).st.notices.contains (m, i) = true →
     ((s.hlm.get m).tags.find? fun q => q.ch == some n && q.idx == some i && q.owes) = some x →
     ∃ t, exec (.entryIndexNotice m n i) s = .next t ∧ (t.chan.get n).st.notices.contains (m, i) = false ∧
       (t.hlm.get m).txq = (s.hlm.get m).txq ++ [{ outMsg 0x08 x.port x.tag with status := 9, aux := x.aux }] ∧
       (t.chan.get n).st.tt = (s.chan.get n).st.tt ∧ (∀ k, k ≠ n → t.chan.get k = s.chan.get k) ∧
       (∀ k, k ≠ m → t.hlm.get k = s.hlm.get k) ∧ t.dram = s.dram) ∧
   (∀ (m : Mod) (n : Ch) (i : EntryIx) (s : State),
     (s.chan.get n).st.notices.contains (m, i) = true →
     ((s.hlm.get m).tags.find? fun q => q.ch == some n && q.idx == some i && q.owes) = none →
     exec (.entryIndexNotice m n i) s = .next (s.updChan n fun c => c.updSt fun x =>
       { x with notices := x.notices.filter (· != (m, i)) })))

/-- A scrub visit puts a read, or in an Initialise pass a write of the pattern, of its line into the table; a
channel's share ends when every line is visited and done; a pass ends with SCRUB_DONE and the engine held until it is
taken. A fill ends with the entry LIVE, or POISONED, and its command answered. A repair sequence ends after its time;
a hard one leaves the debts of its SID and pseudo-channel at 0; one whose sequencer fails is marked so, at the point
it reached. Clauses that rest on the model's choices follow log entries 2, 12 and 31. -/
def Obligations.Maintenance : Prop :=
  (∀ (n : Ch) (l : Loc) (s : State), (s.chan.get n).share = true → l.row.toNat < s.map.nrow → l.sid.toNat < s.map.nsid →
    s.mgmt.scrub.start ≤ s.map.hostAddr n l → s.map.hostAddr n l < s.mgmt.scrub.start + s.mgmt.scrub.len →
    (s.chan.get n).visited.contains l = false → (s.chan.get n).canTake s.now (s.chan.get n).cfg.maintCls = true →
    ∃ t, exec (.scrubPaceTick n l) s = .next t ∧ (t.chan.get n).visited = l :: (s.chan.get n).visited ∧
      t.clk.now = (if (s.chan.get n).visited = [] then s.clk.now
        else max s.clk.now ((s.chan.get n).lastPace + s.mgmt.scrub.pace)) ∧
      (s.mgmt.scrub.mode = 2 →
        ∃ e ∈ (t.chan.get n).st.tt, e.purpose = .scrubInit ∧ e.loc = l ∧ e.kind = .mwr ∧ e.maint = true ∧ e.poison = false ∧
          ∀ w : Fin 16, w.val < 8 ∨ s.map.isJoined n = true →
            e.data.extractLsb' (64 * w.val) 64 = s.mgmt.scrub.pattern) ∧
      (s.mgmt.scrub.mode ≠ 2 →
        ∃ e ∈ (t.chan.get n).st.tt, e.purpose = .scrubRd ∧ e.loc = l ∧ e.kind = .mrd ∧ e.maint = true) ∧
      (t.chan.get n).st.tt.length + (s.chan.get n).st.tt.countP (fun x => x.kind == .hint && x.loc.bank == l.bank) =
        (s.chan.get n).st.tt.length + 1 ∧
      (∀ k, k ≠ n → t.chan.get k = s.chan.get k) ∧ t.hlm = s.hlm ∧ t.port = s.port ∧ t.dram = s.dram) ∧
  (∀ (n : Ch) (s : State), (s.chan.get n).share = true → (s.chan.get n).st.tt.any Entry.isScrub = false →
    s.shareSize n ≤ (s.chan.get n).visited.length →
    exec (.scrubShareDone n) s = .next (s.updChan n fun c => { c with share := false })) ∧
  (∀ (k : Mb) (s : State), s.mgmt.scrub.running = true → s.mgmt.scrub.mb = some k → s.mgmt.fw.st ≠ .restarting →
    (∀ n, (s.chan.get n).share = false ∧ (s.chan.get n).st.tt.any Entry.isScrub = false) →
    ∃ t, exec .scrubPassEnd s = .next t ∧ t.mgmt.scrub = { s.mgmt.scrub with running := false, held := true } ∧
      (t.mb k).answers = (s.mb k).answers ++ [{
        opcode := 0x7F, tag := 0, result := 1, status := if s.mgmt.scrub.aborted then 0xC else 0 }] ∧
      (∀ n, (t.chan.get n).st = (s.chan.get n).st ∧ (t.chan.get n).visited = []) ∧ (∀ j, j ≠ k → t.mb j = s.mb j) ∧
      t.hlm = s.hlm ∧ t.port = s.port ∧ t.dram = s.dram) ∧
  (∀ (n : Ch) (i : Fin 16) (e : Entry) (j : RemapJob) (k : Mb) (tag : BitVec 2) (s : State),
    (s.chan.get n).st.tt.find? (fun x => x.purpose == .remapFill i && x.st == .sram && x.kind == .mwr) = some e →
    (∀ x ∈ (s.chan.get n).st.tt, x.st ≠ .chain) →
    s.mgmt.fw.remapJobs.find? (fun x => x.n == n && x.i == i && !x.release) = some j →
    j.by_ = some (k, tag) → ((s.mb k).cmds.find? (·.tag = tag)).isSome = true →
    ∃ t, exec (.remapFillDone n i) s = .next t ∧
      (t.chan.get n).remap = upd (s.chan.get n).remap i (fun r =>
        { r with st := if e.poison then .poisoned else .live, data := if e.poison then 0 else e.data }) ∧
      (t.chan.get n).st.tt = (s.chan.get n).st.tt.filter (fun x => decide (x.idx ≠ e.idx)) ∧
      (∃ a, (t.mb k).answers = (s.mb k).answers ++ [a] ∧ a.tag = tag ∧ a.status = 0 ∧
        a.result = remapResult i false (!s.mgmt.fuse.recordFree) (if e.poison then .poisoned else .live)) ∧
      t.mgmt.fw.remapJobs = s.mgmt.fw.remapJobs.filter (· != j) ∧ (∀ k, k ≠ n → t.chan.get k = s.chan.get k) ∧
      t.hlm = s.hlm ∧ t.dram = s.dram) ∧
  (∀ (n : Ch) (r : Repair) (s : State), (s.chan.get n).repair = some r → r.phase = 7 → r.hard = false → r.failed = false →
    ∃ t, exec (.softRepairSequenceDone ⟨n, true⟩) s = .next t ∧ t.clk.now = max s.clk.now (r.startAt + s.seqTime n r) ∧
      (t.chan.get n) = { (s.chan.get n) with repair := some { r with phase := 8, nextRd := 0, done := 0 } } ∧
      (∀ k, k ≠ n → t.chan.get k = s.chan.get k) ∧ t.hlm = s.hlm ∧ t.dram = s.dram ∧ t.mgmt = s.mgmt) ∧
  (∀ (n : Ch) (r : Repair) (s : State), (s.chan.get n).repair = some r → r.phase = 7 → r.hard = true → r.failed = false →
    ∃ t, exec (.hardRepairSequenceDone ⟨n, true⟩) s = .next t ∧ t.clk.now = max s.clk.now (r.startAt + s.seqTime n r) ∧
      (t.chan.get n).repair = some { r with phase := 8, nextRd := 0, done := 0 } ∧
      (∀ b, (t.chan.get n).rf.debt.get b =
        if b ∈ sidBanks r.loc.bank then 0 else (s.chan.get n).rf.debt.get b) ∧
      (t.chan.get n).st = (s.chan.get n).st ∧
      (∀ k, k ≠ n → t.chan.get k = s.chan.get k) ∧ t.hlm = s.hlm ∧ t.dram = s.dram ∧ t.mgmt = s.mgmt) ∧
  (∀ (n : Ch) (r : Repair) (s : State), (s.chan.get n).repair = some r → r.hard = false → r.failed = false →
    exec (.softRepairSequenceDone ⟨n, false⟩) s = .next (s.updChan n fun c => { c with repair := some r.fail })) ∧
  (∀ (n : Ch) (r : Repair) (s : State), (s.chan.get n).repair = some r → r.hard = true → r.failed = false →
    ∃ t, exec (.hardRepairSequenceDone ⟨n, false⟩) s = .next t ∧ (t.chan.get n).repair = some r.fail ∧
      (∀ b, (t.chan.get n).rf.debt.get b =
        if r.phase = 7 ∧ b ∈ sidBanks r.loc.bank then 0 else (s.chan.get n).rf.debt.get b) ∧
      (t.chan.get n).st = (s.chan.get n).st ∧ t.clk = s.clk ∧
      (∀ k, k ≠ n → t.chan.get k = s.chan.get k) ∧ t.hlm = s.hlm ∧ t.dram = s.dram ∧ t.mgmt = s.mgmt)

/-- A pair transition begins once every earlier request has completed: the pair is in transition, its tables are empty
and its mode is the one it leaves for; nothing stored changes yet, and an initialisation starts in each engine that
the pair has then; on an entry the earlier commands of both channels bind the pair. At its end, once the engines have
written their last line, every line of both channels holds zeros, every other channel's lines are as they were, the
change is reported and the command answered. Clauses that rest on the model's choices follow log entries 26 and 32. -/
def Obligations.PairTransition : Prop :=
  (∀ (c : PairIx) (j : TwinJob) (s : State), s.mgmt.fw.twinJobs.find? (·.c == c) = some j →
    s.map.trans.getLsbD c.val = false → s.pairIdle c = true →
    ∃ t, exec (.twinwingTransitionBegin c) s = .next t ∧ t.map.trans.getLsbD c.val = true ∧
      t.map.joined.getLsbD c.val = j.entry ∧ (t.chan.get (leader c)).st.tt = [] ∧ (t.chan.get (follower c)).st.tt = [] ∧
      (t.chan.get (leader c)).rsvNow = [] ∧ (t.chan.get (follower c)).rsvNow = [] ∧
      (t.chan.get (leader c)).init = some 0 ∧ (j.entry = false → (t.chan.get (follower c)).init = some 0) ∧
      (j.entry = true → ∀ n, n = leader c ∨ n = follower c → ∀ x ∈ (s.chan.get n).st.hist,
        ∃ y ∈ (t.chan.get (leader c)).st.hist, y.op = x.op ∧ y.loc = x.loc ∧ y.at_ = x.at_) ∧
      (∀ n, n ≠ leader c → n ≠ follower c → t.chan.get n = s.chan.get n) ∧
      (∀ k : PairIx, k ≠ c → t.map.trans.getLsbD k.val = s.map.trans.getLsbD k.val ∧
        t.map.joined.getLsbD k.val = s.map.joined.getLsbD k.val) ∧
      t.hlm = s.hlm ∧ t.port = s.port ∧ t.dram = s.dram) ∧
  (∀ (c : PairIx) (l : Loc) (n : Ch) (x : Loc) (s : State), s.map.trans.getLsbD c.val = true → n ≠ leader c →
    n ≠ follower c → (∀ k, (k = leader c ∨ k = follower c) → s.initDone k = true) →
    ∃ t, exec (.twinwingTransitionDone c) s = .next t ∧ t.map.trans.getLsbD c.val = false ∧
      t.map.joined = s.map.joined ∧ t.readLine (leader c) l = 0 ∧ t.readLine (follower c) l = 0 ∧
      t.readLine n x = s.readLine n x ∧ t.isPoison (leader c) l = false ∧ t.isPoison (follower c) l = false ∧
      t.mgmt.occq = s.mgmt.occq ++ [{
        e := 357, cause := 1, detB := 0, tb := s.clk.timeBase, detA := BitVec.ofNat 24 (c.val + 256 * (if s.map.joined.getLsbD c.val then 1 else 0)) }] ∧
      (∀ k, k ≠ leader c → k ≠ follower c → t.chan.get k = s.chan.get k) ∧ t.hlm = s.hlm ∧ t.port = s.port) ∧
  (∀ (c : PairIx) (s : State), s.map.trans.getLsbD c.val = true →
    (∃ k, (k = leader c ∨ k = follower c) ∧ s.initDone k = false) →
    exec (.twinwingTransitionDone c) s = .next s) ∧
  (∀ (c : PairIx) (j : TwinJob) (k : Mb) (tag : BitVec 2) (s : State), s.map.trans.getLsbD c.val = true →
    (∀ k, (k = leader c ∨ k = follower c) → s.initDone k = true) →
    s.mgmt.fw.twinJobs.find? (·.c == c) = some j → j.by_ = some (k, tag) →
    ((s.mb k).cmds.find? (·.tag = tag)).isSome = true →
    ∃ t, exec (.twinwingTransitionDone c) s = .next t ∧
      (∃ a, (t.mb k).answers = (s.mb k).answers ++ [a] ∧ a.tag = tag ∧ a.status = 0 ∧ a.result = 0) ∧
      t.mgmt.fw.twinJobs = s.mgmt.fw.twinJobs.filter (fun x => x.c != c) ∧ t.hlm = s.hlm)

/-- A sensor reading is kept; at 105 degrees the channel is capped, and at 110 in Imago the trip begins: every channel
holds its ACTs. A trip puts each channel into self-refresh within 1 us and closes its rows; its check every 8 ms
counts a run of cool readings, and the second in a row ends it; a failed read is not cool. The cap of 105 degrees ends
after 1 ms. Clauses that rest on the model's choices follow log entries 2, 16 and 33. One step of the model takes the
settings that wait, counts the commands since the last step, and sends the cap that it finds to every channel that
does not have it. The budget is full again after 1 s at or below the warning threshold. Clauses that rest on the
model's choices follow log entries 2, 8 and 33. -/
def Obligations.Thermal : Prop :=
  ((∀ (n : Ch) (v : BitVec 8) (s : State), s.quadOn n = true →
     ∃ t, exec (.baseDieSensorReading n v) s = .next t ∧ (t.chan.get n).st.baseTemp = v ∧
       (t.chan.get n).st.crit = ((s.chan.get n).st.crit || decide (105 ≤ v.toInt)) ∧
       (110 ≤ v.toInt → s.pwr.state = .imago → t.pwr.trip = true ∧
         (s.pwr.trip = false → ∀ k, (s.chan.get (s.map.server k)).st.recov = .none →
           (t.chan.get k).st.tripHold = true ∧ (t.chan.get k).st.tripAt = some s.now)) ∧
       (v.toInt < 110 → t.pwr.trip = s.pwr.trip ∧ ∀ k, k ≠ n → t.chan.get k = s.chan.get k) ∧
       (∀ k, k ≠ n → (t.chan.get k).st.baseTemp = (s.chan.get k).st.baseTemp) ∧ t.hlm = s.hlm ∧ t.port = s.port ∧
       t.dram = s.dram) ∧
   (∀ (n : Ch) (u : Nat) (s : State), (s.chan.get n).st.tripAt = some u → (s.chan.get n).st.pwr ≠ .selfRefresh →
     (s.chan.get (s.map.server n)).st.pwr ≠ .selfRefresh → (s.chan.get (s.map.server n)).st.recov = .none →
     (s.chan.get (s.map.server n)).repairRuns = false →
     ∃ t, exec (.tripColumnWindowExpiry n) s = .next t ∧ t.clk.now = max s.clk.now (u + 1000) ∧
       (∀ k ∈ s.map.reach (s.map.server n), (t.chan.get k).st.pwr = .selfRefresh ∧ (t.chan.get k).st.tripAt = none ∧
         ∀ b, ((t.chan.get k).bank b).row = none) ∧
       (∀ b, (t.chan.get (s.map.server n)).rf.owed.get b = [] ∧ (t.chan.get (s.map.server n)).rf.debt.get b ≤ 0) ∧
       (∀ k, k ∉ s.map.reach (s.map.server n) → t.chan.get k = s.chan.get k) ∧ t.hlm = s.hlm ∧ t.dram = s.dram ∧
       t.mgmt = s.mgmt) ∧
   (∀ (tmps : List TmpSample) (s : State), s.pwr.trip = true → s.pwr.state = .imago →
     ∃ t, exec (.tripCheck tmps) s = .next t ∧ t.clk.now = max s.clk.now (s.pwr.lastCheck + 8000000) ∧
       (t.pwr.trip = false ↔ ((∀ n ∈ s.checkCh, ∀ i, i.val < s.nsidNow → (sampleOf tmps n i).isSome = true) ∧
         t.tHotNow < 100 ∧ 1 ≤ s.pwr.tripRun)) ∧
       (t.pwr.trip = false → ∀ n, (t.chan.get n).st.tripHold = false) ∧
       (t.pwr.trip = true → t.pwr.lastCheck = t.clk.now ∧
         (t.pwr.tripRun = 1 ↔ ((∀ n ∈ s.checkCh, ∀ i, i.val < s.nsidNow → (sampleOf tmps n i).isSome = true) ∧
           t.tHotNow < 100))) ∧
       t.hlm = s.hlm ∧ t.port = s.port ∧ t.dram = s.dram) ∧
   (∀ (n : Ch) (u : Nat) (s : State), (s.chan.get n).st.crit = true → (s.chan.get n).st.critCoolAt = some u → s.quadOn n = true →
     ∃ t, exec (.criticalCapEnd n) s = .next t ∧ t.clk.now = max s.clk.now (u + 1000000) ∧
       (t.chan.get n).st = { (s.chan.get n).st with crit := false } ∧
       (∃ r, t.mgmt.occq = (s.mgmt.occq ++ [{
         e := evTherm n, cause := 3, detA := tempDet (s.chan.get n).st.baseTemp none, detB := 0, tb := t.clk.timeBase }]) ++ r ∧ r.length ≤ 1) ∧
       (∀ k, k ≠ n → t.chan.get k = s.chan.get k) ∧ t.hlm = s.hlm ∧ t.dram = s.dram)) ∧
  ((∀ (s : State), s.modelRuns = true →
     ∃ t, exec .thermalModelStep s = .next t ∧ t.mgmt.therm.pendFloor = none ∧ t.mgmt.therm.pendThr = none ∧
       t.mgmt.therm.lastAct = s.actSum ∧ t.mgmt.therm.lastCol = s.colSum ∧
       (∀ f b, s.mgmt.therm.pendFloor = some (f, b) → t.mgmt.therm.floor = f ∧ t.mgmt.therm.bMax = b) ∧
       (∀ w h, s.mgmt.therm.pendThr = some (w, h) → t.mgmt.therm.warn = w ∧ t.mgmt.therm.throttle = h) ∧
       t.mgmt.therm.cLoop ≤ s.mgmt.therm.cLoop + 8 ∧ t.mgmt.therm.cLoop ≤ 64 ∧
       (∀ n, (t.chan.get n).st.capBus = if (s.chan.get n).st.capIn = t.mgmt.therm.cap ∧ (s.chan.get n).st.capBus = none
         then none else some t.mgmt.therm.cap) ∧
       (∀ n, (t.chan.get n).st.tt = (s.chan.get n).st.tt ∧ (t.chan.get n).cnt = (s.chan.get n).cnt) ∧ t.hlm = s.hlm ∧
       t.port = s.port ∧ t.dram = s.dram ∧ t.clk = s.clk) ∧
   (∀ (u : Nat) (s : State), s.mgmt.therm.coolSince = some u → s.modelRuns = true →
     exec .budgetRefill s = .next ((s.advance (u + 1000000000)).updTherm fun x => { x with budget := x.bMax.toNat })))

/-- An entry to a lower power state. Priri's wait starts the entry that the target asks for, in deferral; after the
quiet time step E1 begins; at the longest deferral the entry is abandoned, with the state it left. Each step does its
work in order: drained, flushed, trackers treated, refreshes paid, links parked, dies down (in self-refresh all of
them at the largest multiplier in force), and the state is entered and counted. A refused park before the commit point
aborts a native entry, and brings its link down in an entry by SR_ENTER. Clauses that rest on the model's choices
follow log entries 2 and 16. -/
def Obligations.PowerEntry : Prop :=
  (∀ (s : State), s.mgmtOn = true → s.mgmt.fw.st = .ready → s.owesPower = false → s.pwr.state = .imago →
    (s.pwr.target = 1 ∨ s.pwr.target = 2) → s.pwr.lossSeq = none → s.pwr.lossHold = false → s.clk.pllLock = true →
    exec .pririWait s = .next ((s.updFw fun f => { f with waiting := true }).updPwr fun p =>
      { p with from_ := .imago, ph := .defer, bySr := false, deferAt := s.now,
               state := if p.target = 1 then .toPupa else .toChrysalis })) ∧
  (∀ (s : State), s.mgmtOn = true → s.mgmt.fw.st = .ready → s.owesPower = false → s.pwr.state = .chrysMgmt →
    s.pwr.target = 2 → s.pwr.lossHold = false →
    ∃ t, exec .pririWait s = .next t ∧
      t.pwr = { s.pwr.offDom s.now 1 with state := .chrysalis } ∧
      t.mgmt.fw = { s.mgmt.fw with waiting := true } ∧ t.mgmt.log = { s.mgmt.log with stopAt := some s.now } ∧
      t.clk = s.clk ∧ t.chan = s.chan ∧ t.hlm = s.hlm ∧ t.port = s.port ∧ t.dram = s.dram) ∧
  (∀ (s : State), s.pwr.ph = .defer → s.pwr.bySr = false → s.quietNow = true →
    exec .quietTimeExpiry s = .next ((s.advance (s.quietSince + s.pwr.quiet)).updPwr fun p => { p with ph := .step 1 })) ∧
  (∀ (n : Ch) (s : State), s.pwr.deferAt ≤ s.quietSince ∧ s.pwr.stirAt ≤ s.quietSince ∧
    (s.chan.get n).st.freeAt ≤ s.quietSince) ∧
  (∀ (s : State), s.pwr.ph = .defer → s.pwr.bySr = false →
    ∃ t, exec .deferMaxExpiry s = .next t ∧ t.clk.now = max s.clk.now (s.pwr.deferAt + s.pwr.deferMax) ∧
      t.pwr = { s.pwr with ph := .none, state := s.pwr.from_, target := 0, lastAbort := 3, aborts := s.pwr.aborts + 1 } ∧
      t.mgmt.fw = { s.mgmt.fw with waiting := false } ∧
      t.mgmt.occq = s.mgmt.occq ++ [{ e := 352, cause := 1, detA := 3, detB := 0, tb := t.clk.timeBase }] ∧
      t.hlm = s.hlm ∧ t.chan = s.chan ∧ t.port = s.port ∧ t.dram = s.dram) ∧
  (∀ (s : State), s.pwr.ph = .defer → s.pwr.bySr = true → s.pwr.trip = false → s.pathIdle = true → s.workIdle = true →
    (∀ m, (s.hlm.get m).srBlocked = true ∨ (s.hlm.get m).link ≠ .active) →
    exec .srEnterDeferralEnd s = .next (s.updPwr fun p => { p with ph := .step 1 })) ∧
  (∀ (s : State), s.pwr.ph = .step 1 → s.drained = true →
    ∃ t, exec .entryStepComplete s = .next t ∧ t.pwr = { s.pwr with ph := .step 2 } ∧
      (∀ n ∈ s.upCh, ∀ i, ((t.chan.get n).st.lb.get i).line ≠ none → ((t.chan.get n).st.lb.get i).dirty = false) ∧
      t.hlm = s.hlm ∧ t.mgmt = s.mgmt ∧ t.clk = s.clk) ∧
  (∀ (s : State), s.pwr.ph = .step 2 →
    ∃ t, exec .entryStepComplete s = .next t ∧ t.pwr = { s.pwr with ph := .step 3 } ∧
      (∀ n b, ((t.chan.get n).trk b).ents = [] ∧ (t.chan.get n).st.rsv = [] ∧ (t.chan.get n).st.rsvEvs = [] ∧
        (t.chan.get n).rf.trf = []) ∧
      t.hlm = s.hlm ∧ t.mgmt = s.mgmt ∧ t.dram = s.dram) ∧
  (∀ (s : State), s.pwr.ph = .step 3 → s.pwr.bySr = false →
    ∃ t, exec .entryStepComplete s = .next t ∧ t.pwr = { s.pwr with ph := .step 4 } ∧
      (∀ n ∈ s.upCh, ∀ b, (t.chan.get n).rf.owed.get b = [] ∨
        s.pwr.state = .toPupa ∧ (s.map.nsid ≤ (bankSid b).val ∨ (s.chan.get n).cfg.refAllBank = true)) ∧
      t.hlm = s.hlm ∧ t.mgmt = s.mgmt ∧ t.dram = s.dram) ∧
  (∀ (s : State), s.pwr.ph = .step 4 → (∀ m, s.mayPark m = true) →
    ∃ t, exec .entryStepComplete s = .next t ∧ t.pwr = { s.pwr with ph := .step 5 } ∧
      (∀ m, t.hlm.get m = { (s.hlm.get m) with
        link := if (s.hlm.get m).link = .active then .parked else (s.hlm.get m).link }) ∧
      t.chan = s.chan ∧ t.mgmt = s.mgmt ∧ t.dram = s.dram) ∧
  (∀ (s : State), s.pwr.ph = .step 5 →
    ∃ t, exec .entryStepComplete s = .next t ∧ t.pwr.ph = .step 6 ∧ t.pwr.state = s.pwr.state ∧
      (∀ n, s.map.mapped.getLsbD n.val = true → s.map.hole.getLsbD n.val = false → s.map.isFollower n = false →
        ((s.chan.get n).st.pwr = .active ∨ s.pwr.state ≠ .toPupa ∧ (s.chan.get n).st.pwr = .powerDown) →
        (t.chan.get n).st.pwr = (if s.pwr.state = .toPupa then .powerDown else .selfRefresh) ∧
        ∀ b, ((t.chan.get n).bank b).row = none) ∧
      (s.pwr.state ≠ .toPupa → t.pwr.eye.rateEntry = s.maxMult ∧
        ∀ n, s.map.mapped.getLsbD n.val = true → s.map.hole.getLsbD n.val = false → s.map.isJoined n = false →
          (s.chan.get n).repair = none → ((s.chan.get n).dies.get 0).looping = false →
          ((t.chan.get n).dies.get 0).read 0x68 = (mulCode s.maxMult).setWidth 8) ∧
      t.hlm = s.hlm ∧ t.mgmt = s.mgmt ∧ t.dram = s.dram) ∧
  (∀ (s : State), s.pwr.ph = .step 6 → s.pwr.tripPend = false → s.pwr.wakePend = none →
    (s.pwr.state = .toPupa → (∀ q : Fin 16, s.domUsable (quadDom q.val) = true ∨ s.pwr.dom.get (quadDom q.val) = 0) → ∃ t, exec .entryStepComplete s = .next t ∧ t.pwr = { s.pwr with
      state := .pupa, ph := .none, bySr := false, srEntered := false, entries := s.pwr.entries + 1 } ∧
      (∃ o, t.mgmt.occq = s.mgmt.occq ++ [o] ∧ o.e = 351) ∧ t.chan = s.chan ∧ t.hlm = s.hlm ∧ t.dram = s.dram) ∧
    (s.pwr.state ≠ .toPupa → ∃ t, exec .entryStepComplete s = .next t ∧ t.pwr.state = .chrysalis ∧ t.pwr.ph = .none ∧
      t.pwr.srEntered = s.pwr.bySr ∧ t.pwr.entries = s.pwr.entries + 1 ∧ t.clk.pllLock = false ∧ t.clk.aonOsc = true ∧
      (∀ d : Fin 39, d ≠ 0 → t.pwr.dom.get d = 0) ∧ (∀ n, (t.chan.get n).st.tt = [] ∧ (t.chan.get n).cfg = (s.chan.get n).cfg) ∧
      (∀ m, (t.hlm.get m).link = (s.hlm.get m).link ∧ (t.hlm.get m).posted.length = (s.hlm.get m).posted.length ∧
        (t.hlm.get m).tags = []) ∧
      (∃ o, t.mgmt.occq = s.mgmt.occq ++ [o] ∧ o.e = 351) ∧ t.port = s.port ∧ t.dram = s.dram)) ∧
  (∀ (m : Mod) (s : State), s.pwr.ph = .step 4 → (s.hlm.get m).link = .active →
    (s.pwr.bySr = true → ∃ h, exec (.parkRefused m) s = .next (s.updHlm m fun _ => h) ∧ h.link = .down ∧ h.tags = [] ∧
      h.posted.length = (s.hlm.get m).posted.length) ∧
    (s.pwr.bySr = false → ∃ t, exec (.parkRefused m) s = .next t ∧ t.pwr.state = s.pwr.from_ ∧ t.pwr.ph = .none ∧
      t.pwr.lastAbort = 2 ∧ t.pwr.aborts = s.pwr.aborts + 1 ∧ t.hlm = s.hlm ∧ t.chan = s.chan ∧ t.dram = s.dram))

/-- Waking. A source seen in Pupa or Chrysalis starts the wake and is recorded with its module; fewer than eight
transitions are no pattern; an address match in Chrysalis asks for the management domain. Lock is reported, domains
come up step by step, and Imago is entered when the first parked module is active: the dies are out of power-down and
self-refresh, every bucket is full, and the other links stay as they are. Clauses that rest on the model's choices
follow log entries 16 and 35. -/
def Obligations.Waking : Prop :=
  (∀ (i : Instr) (m : Mod) (src : BitVec 4) (k : Nat) (s : State),
    (i = .flitActivityWake m ∧ src = 1 ∨ i = .sidebandExitRequest m ∧ src = 3 ∨
      i = .wakePattern m k ∧ 24 ≤ k ∧ s.pwr.patEn.getLsbD m.val = true ∧ s.pwr.state ≠ .pupa ∧ src = 2) →
    (s.hlm.get m).usable = true → s.pwr.eye.inVisit = false → s.pwr.lossHold = false →
    (s.pwr.state = .pupa ∨ s.pwr.state = .chrysalis ∨ s.pwr.state = .chrysMgmt) →
    ∃ t, exec i s = .next t ∧ t.pwr = { s.pwr with
      lastWake := src, wakeHlm := BitVec.ofNat 5 m.val, wakePend := none, mgmtWake := false, from_ := s.pwr.state,
      state := .waking, upAt := s.now } ∧
      (t.clk.pllLock = true ∨ t.clk.pllEnabled = true) ∧
      (∀ n, t.chan.get n = if (s.chan.get (s.map.server n)).inBurst = true then (s.chan.get n).endBurst else s.chan.get n) ∧
      t.hlm = s.hlm ∧ t.mgmt = s.mgmt ∧ t.dram = s.dram) ∧
  (∀ (m : Mod) (k : Nat) (s : State), k < 8 → exec (.wakePattern m k) s = .next s) ∧
  (∀ (s : State), s.pwr.state = .chrysalis → s.pwr.mgmtWake = false →
    exec .i3cAddressMatch s = .next (s.updPwr fun p => { p with mgmtWake := true, lastWake := 5 })) ∧
  (∀ (s : State), s.clk.pllEnabled = true → s.clk.pllLock = false → s.clk.refclkOk = true → s.pwr.eye.inVisit = false →
    exec .pllLock s = .next (s.updClk fun k => { k with pllLock := true, mgmtOsc := false, aonOsc := false })) ∧
  (∀ (d : Fin 39) (s : State), s.powering d = true → s.pwr.dom.get d < 4 →
    (s.pwr.dom.get d = 1 → 2 ≤ d.val → s.clk.pllLock = true) → (d = 1 → s.pwr.dom.get 1 < 3) →
    ∃ t, exec (.powerUpStepReady d) s = .next t ∧ t.pwr = { s.pwr with dom := upd s.pwr.dom d fun k => k + 1 } ∧
      t.clk.now = (if s.pwr.dom.get d = 0 then max s.clk.now (s.switchAt d) else s.clk.now) ∧
      t.chan = s.chan ∧ t.hlm = s.hlm ∧ t.mgmt = s.mgmt ∧ t.dram = s.dram) ∧
  (∀ (d : Fin 39) (s : State), s.boot.ph ≠ .cold 7 → s.pwr.upAt + 500 * waveOf d ≤ s.switchAt d ∧
    s.pwr.downAt.get d + 20 ≤ s.switchAt d) ∧
  (∀ (s : State), s.powering 1 = true → s.pwr.dom.get 1 = 3 → s.pwr.state ≠ .chrysalis →
    ∃ t, exec (.powerUpStepReady 1) s = .next t ∧ t.pwr = { s.pwr with dom := upd s.pwr.dom 1 fun _ => 4 } ∧
      t.mgmt.log.stopAt = none ∧ t.mgmt.log.hq = s.mgmt.log.hq ∧ t.mgmt.fw = s.mgmt.fw ∧ t.clk = s.clk ∧ t.chan = s.chan ∧
      t.hlm = s.hlm ∧ t.dram = s.dram) ∧
  (∀ (s : State), s.pwr.state = .chrysalis → s.pwr.mgmtWake = true → s.pwr.dom.get 1 = 3 → s.pwr.lossHold = false →
    ∃ t, exec (.powerUpStepReady 1) s = .next t ∧ t.pwr.state = .chrysMgmt ∧ t.pwr.mgmtWake = false ∧
      t.pwr.dom.get 1 = 4 ∧ t.mgmt.fw = { s.mgmt.fw with waiting := false } ∧ t.chan = s.chan ∧ t.hlm = s.hlm ∧ t.dram = s.dram) ∧
  (∀ (m : Mod) (s : State), s.clk.pllLock = true → (s.hlm.get m).link = .parked → s.pwr.state = .waking →
    s.allUp = true → s.pwr.trip = false →
    ∃ t, exec (.wakeComplete m) s = .next t ∧ t.pwr = { s.pwr with state := .imago, target := 0 } ∧
      (t.hlm.get m).link = .active ∧ (t.hlm.get m).evq = s.eventsFor m ∧
      (∀ k, k ≠ m → (t.hlm.get k).link = (s.hlm.get k).link) ∧
      (∀ k, (t.hlm.get k).srBlocked = false) ∧
      (∀ n, s.map.mapped.getLsbD n.val = true → s.map.hole.getLsbD n.val = false → s.map.isFollower n = false →
        (s.chan.get n).inReset = false → (t.chan.get n).st.pwr = .active) ∧
      (∀ k, (t.port.get k).tokC = 1000 * (s.port.get k).force.cbs.toNat ∧
        (t.port.get k).tokP = 1000 * (s.port.get k).force.pbs.toNat) ∧ t.mgmt.fw = { s.mgmt.fw with waiting := false } ∧
      t.dram = s.dram) ∧
  (∀ (m : Mod) (s : State), s.clk.pllLock = true → (s.hlm.get m).link = .parked → s.pwr.state = .imago →
    exec (.wakeComplete m) s = .next (s.updHlm m fun h => { h with link := .active, evq := s.eventsFor m }))

/-- The Eyespot sampler and the reference clock. A visit starts a period after the last, sends SRX, a TMP of every SID
and SRE to its sentinel channels from 9 us on, and ends with one ring entry; at 110 degrees the trip begins. A
declared loss counts what is lost, takes every link down and empties the engines; its sequence ends in self-refresh on
the oscillator, and is reported. No lock within 8 us ends a visit as a loss. Clauses that rest on the model's choices
follow log entries 2 and 35. -/
def Obligations.EyespotAndLoss : Prop :=
  (∀ (s : State), (s.pwr.state = .chrysalis ∨ s.pwr.state = .chrysMgmt) → s.pwr.eye.inVisit = false →
    ∃ t, exec .eyespotVisitStart s = .next t ∧
      t.clk.now = max s.clk.now (s.pwr.eye.lastStart + 1000000 * s.pwr.eye.period) ∧
      t.pwr = { s.pwr with eye := { s.pwr.eye with inVisit := true, lastStart := t.clk.now } } ∧
      (t.clk.pllLock = true ∨ t.clk.pllEnabled = true) ∧
      (s.clk.refclkOk = false → t.chan = s.chan) ∧
      (∀ n, (∀ k : Fin 4, ∀ j, s.map.sentinel k.val = some j → n ∉ s.map.reach (s.map.server j)) →
        t.chan.get n = s.chan.get n) ∧
      (s.clk.refclkOk = true → ∀ k : Fin 4, ∀ j, s.map.sentinel k.val = some j → s.map.isJoined j = false →
        (s.chan.get j).st.pwr = .selfRefresh →
        (∃ x ∈ (t.chan.get j).st.hist, x.op = .srx ∧ t.clk.now + 9000 ≤ x.at_) ∧
        (∀ i : SidIx, i.val < s.map.nsid → ∃ x ∈ (t.chan.get j).st.hist, x.op = .tmp ∧ x.loc.sidIx = i ∧ t.clk.now + 9000 < x.at_) ∧
        (∃ x ∈ (t.chan.get j).st.hist, x.op = .sre ∧ t.clk.now + 9000 < x.at_) ∧ (t.chan.get j).st.pwr = .selfRefresh) ∧
      t.hlm = s.hlm ∧ t.dram = s.dram) ∧
  (∀ (base : Vector (BitVec 8) 64) (tmps : List TmpSample) (s : State), s.pwr.eye.inVisit = true → s.clk.refclkOk = true →
    ∃ t, exec (.eyespotVisitEnd base tmps) s = .next t ∧ t.clk.now = max s.clk.now (s.pwr.eye.lastStart + 40000) ∧
      t.pwr.eye.inVisit = false ∧ t.pwr.eye.visits = s.pwr.eye.visits + 1 ∧ t.pwr.eye.widx = s.pwr.eye.widx + 1 ∧
      (t.pwr.eye.ring.get (Fin.ofNat 16 s.pwr.eye.widx.toNat)).lo.extractLsb' 16 16 = s.pwr.eye.visits + 1 ∧
      (∀ i : Fin 16, i ≠ Fin.ofNat 16 s.pwr.eye.widx.toNat → t.pwr.eye.ring.get i = s.pwr.eye.ring.get i) ∧
      ((∃ n : Ch, 110 ≤ (base.get n).toInt) → t.pwr.trip = true) ∧
      (∀ n, (t.chan.get n).st.baseTemp = (s.chan.get n).st.baseTemp ∧ (t.chan.get n).st.tt = (s.chan.get n).st.tt) ∧ t.hlm = s.hlm ∧ t.port = s.port ∧ t.dram = s.dram) ∧
  (∀ (i : Instr) (c : BitVec 1) (s : State), (i = .refclkLoss ∧ c = 0 ∨ i = .pllLockLoss ∧ c = 1) →
    s.clk.pllLock = true → s.pwr.lossSeq = none →
    ∃ t, exec i s = .next t ∧ t.pwr.lossSeq = some c ∧ t.pwr.refLosses = satInc s.pwr.refLosses ∧ t.pwr.ph = .none ∧
      t.pwr.lossDisc = BitVec.ofNat 32 (((List.finRange 20).map fun m => (s.hlm.get m).posted.length).sum +
        ((List.finRange 64).map fun n => (s.chan.get n).unissued).sum) ∧
      t.clk.refclkOk = (s.clk.refclkOk && c == 1) ∧ t.clk.pllLock = (c == 0) ∧
      (∀ n, (t.chan.get n).st.tt = [] ∧ (t.chan.get n).rsvNow = []) ∧
      (∀ m, (t.hlm.get m).tags = [] ∧ (t.hlm.get m).posted = [] ∧
        ((t.hlm.get m).link = .down ∨ (t.hlm.get m).link = .unusable)) ∧ t.port = s.port) ∧
  (∀ (c : BitVec 1) (s : State), s.pwr.lossSeq = some c →
    ∃ t, exec .refclkLossSequenceDone s = .next t ∧ t.pwr.lossSeq = none ∧ t.clk.pllLock = false ∧ t.clk.mgmtOsc = true ∧
      t.clk.aonOsc = true ∧
      (∀ n, s.map.mapped.getLsbD n.val = true → s.map.hole.getLsbD n.val = false → s.map.isFollower n = false →
        (t.chan.get n).st.pwr = .selfRefresh) ∧
      (∀ d : Fin 39, 2 ≤ d.val → t.pwr.dom.get d = 0) ∧
      t.mgmt.occq = s.mgmt.occq ++ [{
        e := 344, cause := 1, detA := c.setWidth 24, detB := s.pwr.lossDisc, tb := s.clk.timeBase }] ∧
      t.hlm = s.hlm ∧ t.dram = s.dram) ∧
  (∀ (s : State), s.boot.ph ≠ .cold 6 → (s.boot.ph = .warm 3 → s.clk.refclkOk = true) → exec .refclkValid s = .next (s.updClk fun k => { k with refclkOk := true })) ∧
  (∀ (s : State), s.boot.ph = .cold 6 → s.clk.refclkOk = false → s.clk.pllLock = false →
    ∃ t, exec .refclkValid s = .next t ∧ t.clk.refclkOk = true ∧ t.clk.now = s.clk.now + 10000 ∧
      t.clk.pllEnabled = true ∧ t.hlm = s.hlm ∧ t.chan = s.chan ∧ t.boot = s.boot) ∧
  (∀ (s : State), s.clk.pllEnabled = true → s.clk.pllLock = false → s.pwr.state = .chrysMgmt → s.pwr.eye.inVisit = true →
    ∃ t, exec .pllLockTimeout s = .next t ∧ t.clk.now = max s.clk.now (s.clk.pllEnabledAt + 8000) ∧
      t.pwr.state = .chrysMgmt ∧ t.pwr.eye.inVisit = false ∧ t.pwr.refLosses = satInc s.pwr.refLosses ∧
      t.clk.pllEnabled = false ∧
      (∃ o, t.mgmt.occq = s.mgmt.occq ++ [o] ∧ o.e = 344 ∧ o.detA = if s.clk.refclkOk then 1 else 0) ∧
      t.hlm = s.hlm ∧ t.chan = s.chan ∧ t.dram = s.dram)

/-- gh_pwrgood_i rising starts the cold boot; falling holds everything in reset, with the core dies and fuses as they
are. gh_rst_n_i falling on a block that has booted starts a warm reset; so does the delay after RESET. A Priri
restart, by the watchdog or an uncorrectable SRAM word, is counted and reported, frees firmware's semaphores and
leaves the data path alone; when it is done every unanswered command ends with RESTARTED. Clauses that rest on the
model's choices follow log entries 2, 22, 29 and 32. -/
def Obligations.Resets : Prop :=
  (∀ (s : State), s.boot.pwrgood = false →
    exec .pwrgoodRise s = .next (s.updBoot fun b => { b with pwrgood := true, ph := .cold 1 })) ∧
  (∀ (n : Ch) (l : Loc) (s : State), ∃ t, exec .pwrgoodFall s = .next t ∧ t.hlm = State.reset.hlm ∧ t.chan = State.reset.chan ∧
    t.port = State.reset.port ∧ t.map = State.reset.map ∧ t.pwr = State.reset.pwr ∧ t.boot.ph = .off ∧
    t.boot.pwrgood = false ∧ t.mgmt.mb = State.reset.mgmt.mb ∧ t.mgmt.fw = State.reset.mgmt.fw ∧
    t.mgmt.fuse.words = s.mgmt.fuse.words ∧ t.mgmt.fuse.shadows = [] ∧
    ((s.chan.get n).st.pwr = .selfRefresh → t.readLine n l = s.readLine n l ∧ t.isPoison n l = s.isPoison n l) ∧
    t.pending = s.pending ∧ t.clk.timeBase = 0 ∧ t.clk.pllLock = false) ∧
  (∀ (s : State), s.boot.ph = .up →
    ∃ t, exec .rstNAssert s = .next t ∧ t.boot = { s.boot.cutDelivery with
      rstN := false, ph := .warm 1, w1Done := false, last := 1, warmCnt := satInc s.boot.warmCnt } ∧
      (∀ m, (t.hlm.get m).tags = [] ∧ (t.hlm.get m).posted.length = (s.hlm.get m).posted.length ∧
        (t.hlm.get m).link = if (s.hlm.get m).link = .unusable then .unusable else .down) ∧
      t.pwr.keptSid = s.map.nsid ∧ (∀ n : Ch, t.pwr.keptCh.getLsbD n.val =
        (s.map.mapped.getLsbD n.val && !(s.map.hole.getLsbD n.val && s.map.lost.getLsbD (s.map.server n).val))) ∧
      (∀ n, t.chan.get n = { s.chan.get n with inReset := false, resetBy := [] }) ∧ t.port = s.port ∧ t.mgmt = s.mgmt ∧ t.dram = s.dram) ∧
  (∀ (s : State), s.boot.rstN = false → s.boot.ph = .cold 2 → s.boot.readAt = 24 →
    exec .rstNRelease s = .next (s.updBoot fun b => { b with rstN := true, ph := .cold 3 })) ∧
  (∀ (s : State), s.boot.rstN = false → s.boot.ph = .warm 1 → s.boot.w1Done = true → s.boot.armed = none →
    s.boot.launchDue = false → s.postedPending = false →
    exec .rstNRelease s = .next (s.updBoot fun b => { b with rstN := true, ph := .warm 2 })) ∧
  (∀ (u : Nat) (s : State), s.mgmt.fw.resetAt = some u → s.boot.ph = .up →
    ∃ t, exec .warmResetDelayExpiry s = .next t ∧ t.clk.now = max s.clk.now (u + 1000000) ∧
      t.mgmt.fw = { s.mgmt.fw with resetAt := none } ∧ t.boot = { s.boot.cutDelivery with
      ph := .warm 1, w1Done := false, last := 2, warmCnt := satInc s.boot.warmCnt } ∧
      (∀ m, (t.hlm.get m).tags = [] ∧ (t.hlm.get m).posted.length = (s.hlm.get m).posted.length) ∧
      (∀ n, t.chan.get n = { s.chan.get n with inReset := false, resetBy := [] }) ∧ t.port = s.port ∧ t.dram = s.dram) ∧
  (∀ (i : Instr) (why : BitVec 24) (s : State), (i = .pririWatchdog ∧ why = 1 ∨ i = .fwSramUncorrectable ∧ why = 4) →
    s.mgmtOn = true → s.mgmt.fw.st ≠ .restarting → s.widerReset = false →
    ∃ t, exec i s = .next t ∧ t.mgmt.fw.st = .restarting ∧ t.mgmt.fw.restarts = satInc s.mgmt.fw.restarts ∧
      t.mgmt.fw.restartWhy = why ∧ t.mgmt.fw.staged = none ∧
      (∀ j, t.mgmt.sem.get j = if s.mgmt.sem.get j = some 0x600 then none else s.mgmt.sem.get j) ∧
      (∃ o ∈ t.mgmt.occq, o.e = 348 ∧ o.detA = why) ∧ (∀ k, (t.mb k).winFw = false) ∧
      (∀ n, (t.chan.get n).st = (s.chan.get n).st ∧ (t.chan.get n).cfg = (s.chan.get n).cfg) ∧ t.port = s.port ∧
      t.dram = s.dram ∧ t.map = s.map) ∧
  (∀ (s : State), s.mgmt.fw.st = .restarting → s.mgmt.fw.commitOn = none →
    s.boot.ph ≠ .warm 1 → s.boot.ph ≠ .warm 2 →
    ∃ t, exec .pririRestartDone s = .next t ∧
      t.mgmt.fw.st = (if s.boot.ph = .up ∧ s.boot.stageOpen = false then .ready else .rom) ∧
      (∀ k, (t.mb k).cmds = [] ∧
        (∀ c ∈ (s.mb k).cmds, { opcode := cmdOpcode c.word, tag := c.tag, status := 9, result := 0 } ∈ (t.mb k).answers) ∧
        ∀ a ∈ (s.mb k).answers, a ∈ (t.mb k).answers) ∧
      (∀ n, (s.chan.get n).cmdFlow = false → t.chan.get n = { s.chan.get n with lastRepair := (t.chan.get n).lastRepair }) ∧ t.hlm = s.hlm ∧ t.dram = s.dram)

/-- The steps of a boot. The cold boot goes on as its domains, fuse words, oscillator and lock come, asks for the
stagger grant before each group, and at its end every line of a mapped channel reads 0 and firmware is ready. A warm
boot, once no posted write is pending, resets the units and keeps the always-on domain, the retention regions of R41
(channel configuration and timing, port rates, the modules' settings, firmware's image) and the core dies' data; it
ends with firmware ready, after the initialisation of a channel that is left of a pair where there is one. A step that
must wait changes nothing. A group that is granted is powered; its results go to its blocks, and a group whose grant
does not come fails. Clauses that rest on the model's choices follow log entries 2, 22, 25 and 38. -/
def Obligations.BootSteps : Prop :=
  (∀ (r : BootReport) (s : State), s.boot.ph = .cold 1 →
    s.domOn 0 = true → ∃ t, exec (.bootStepComplete r) s = .next t ∧ t.boot = { s.boot with ph := .cold 2, readAt := 0 } ∧
      (s.mgmt.fuse.req = false → s.mgmt.fuse.ackHigh = false → t.mgmt.fuse.req = true ∧ t.mgmt.fuse.addr = trimAddr 0) ∧
      t.clk = s.clk ∧ t.pwr = s.pwr ∧ t.chan = s.chan ∧ t.hlm = s.hlm) ∧
  (∀ (r : BootReport) (s : State), s.boot.ph = .cold 2 → s.boot.readAt = 24 → s.boot.rstN = true →
    exec (.bootStepComplete r) s = .next (s.updBoot fun b => { b with ph := .cold 3 })) ∧
  (∀ (r : BootReport) (s : State),
    (s.boot.ph = .cold 2 ∧ s.boot.readAt < 24 ∨ s.boot.ph = .cold 5 ∧ s.boot.readAt < 1049) →
    exec (.bootStepComplete r) s = .next s) ∧
  (∀ (r : BootReport) (s : State), s.boot.ph = .cold 6 → s.clk.pllLock = true → s.domOn 2 = true →
    exec (.bootStepComplete r) s = .next (s.updBoot fun b =>
      { b with ph := .cold 7, group := 0, groupRun := false, stagReq := true, stagAt := s.now })) ∧
  (∀ (r : BootReport) (k : Ch) (l : Loc) (s : State), s.boot.ph = .cold 12 → s.allInit = true →
    ∃ t, exec (.bootStepComplete r) s = .next t ∧ t.boot.ph = .up ∧ t.boot.stageOpen = false ∧ t.mgmt.fw.st = .ready ∧
      (t.map.mapped.getLsbD k.val = true → t.readLine k l = 0 ∧ t.isPoison k l = false) ∧ t.map.frozen = false ∧ t.map.hole = 0 ∧
      (∀ n : Ch, t.map.mapped.getLsbD n.val =
        (s.chUsable n && !s.map.lost.getLsbD n.val && !s.map.trainFail.getLsbD n.val)) ∧ t.hlm = s.hlm ∧ t.port = s.port) ∧
  (∀ (r : BootReport) (s : State), (s.boot.ph = .warm 2 ∧ s.postedPending = true ∨
      (s.boot.ph = .cold 12 ∨ s.boot.ph = .warm 7) ∧ s.allInit = false ∨ s.boot.ph = .warm 6 ∧ s.pwr.trip = true) →
    exec (.bootStepComplete r) s = .next s ∧ exec (.warmBootStepComplete r) s = .next s) ∧
  (∀ (r : BootReport) (s : State), s.boot.ph = .warm 2 → s.postedPending = false →
    ∃ t, exec (.warmBootStepComplete r) s = .next t ∧ t.boot.ph = .warm 3 ∧ t.boot.readAt = 0 ∧ t.pwr.upAt = s.now ∧
      (∀ m, (t.hlm.get m).tags = [] ∧ (t.hlm.get m).posted = [] ∧ (t.hlm.get m).maxRate = (s.hlm.get m).maxRate) ∧
      (∀ n, (t.chan.get n).st.tt = [] ∧ (t.chan.get n).cfg = (s.chan.get n).cfg ∧ (t.chan.get n).tim = (s.chan.get n).tim) ∧
      (∀ k, (t.port.get k).force = (s.port.get k).force ∧ (t.port.get k).green = 0) ∧
      t.mgmt.mb = State.reset.mgmt.mb ∧ (∀ i, t.mgmt.sem.get i = none) ∧ t.mgmt.fw.running = s.mgmt.fw.running ∧
      t.map.joined = s.map.joined ∧ t.map.frozen = false ∧ t.pwr.trip = s.pwr.trip ∧ t.dram = s.dram) ∧
  (∀ (r : BootReport) (s : State), s.boot.ph = .warm 6 → s.pwr.trip = false → s.map.joined = 0 →
    (∀ n, (s.chan.get n).init = none) →
    ∃ t, exec (.warmBootStepComplete r) s = .next t ∧ t.boot.ph = .up ∧ t.mgmt.fw.st = .ready ∧
      (∀ n : Ch, t.map.mapped.getLsbD n.val =
        (s.chUsable n && !s.map.lost.getLsbD n.val && !t.map.trainFail.getLsbD n.val)) ∧
      t.port = s.port ∧ t.hlm = s.hlm ∧ t.dram = s.dram) ∧
  (∀ (r : BootReport) (k : Ch) (l : Loc) (s : State), s.boot.ph = .warm 7 → s.allInit = true →
    ∃ t, exec (.warmBootStepComplete r) s = .next t ∧ t.boot.ph = .up ∧ t.mgmt.fw.st = .ready ∧
      (∀ n, (t.chan.get n).init = none) ∧
      ((s.chan.get k).init.isSome = true → t.readLine k l = 0 ∧ t.isPoison k l = false) ∧
      ((s.chan.get k).init = none → t.readLine k l = s.readLine k l ∧ t.isPoison k l = s.isPoison k l) ∧
      t.map = s.map ∧ t.port = s.port ∧ t.hlm = s.hlm) ∧
  (∀ (s : State), s.boot.ph = .cold 7 → s.boot.stagReq = true → s.boot.groupRun = false →
    exec .staggerGrant s = .next ((s.updPwr fun p => { p with upAt := s.now }).updBoot fun b =>
      { b with stagGnt := true, groupRun := true })) ∧
  (∀ (d : Fin 39) (s : State), s.boot.ph = .cold 7 → s.boot.groupRun = true → s.pwr.lossHold = false →
    (d ∈ (groupMod s.boot.group).map modDom ∨ d = quadDom (2 * s.boot.group) ∨ d = quadDom (2 * s.boot.group + 1)) →
    s.powering d = true) ∧
  (∀ (s : State), s.boot.ph ≠ .cold 7 → exec .staggerGrantLow s = .next (s.updBoot fun b => { b with stagGnt := false })) ∧
  (∀ (s : State), s.boot.ph = .cold 7 → s.boot.group < 8 → s.boot.stagReq = false →
    exec .staggerGrantLow s = .next (s.updBoot fun b => { b with stagGnt := false, stagReq := true, stagAt := s.now })) ∧
  (∀ (i : Fin 8) (s : State), s.boot.ph = .cold 7 → s.boot.stagReq = true → s.boot.groupRun = false →
    s.boot.launch = none → s.boot.group < 8 →
    ∃ t, exec .staggerGrantTimeout s = .next t ∧ t.clk.now = max s.clk.now (s.boot.stagAt + 1000000000) ∧
      t.boot.group = s.boot.group + 1 ∧ t.boot.bistCh.getLsbD (8 * s.boot.group + i.val) = false ∧
      t.map.bistFail.getLsbD (8 * s.boot.group + i.val) = true ∧ t.boot.groupsRun = s.boot.groupsRun ∧
      t.mgmt = s.mgmt ∧ t.dram = s.dram) ∧
  (∀ (cf : BistChans) (mf : BitVec 3) (i : Fin 8) (s : State), s.boot.groupRun = true → s.boot.launch = none →
    s.boot.group < 8 → s.groupOn = true →
    ∃ t, exec (.bistGroupDone cf mf) s = .next t ∧ t.boot.group = s.boot.group + 1 ∧ t.boot.groupRun = false ∧
      t.boot.groupsRun = s.boot.groupsRun + 1 ∧
      t.boot.bistCh.getLsbD (8 * s.boot.group + i.val) = !cf.fail.getLsbD i.val ∧
      t.map.bistFail.getLsbD (8 * s.boot.group + i.val) = cf.fail.getLsbD i.val ∧
      (∀ x ∈ cf.opens, (Fin.ofNat 64 (8 * s.boot.group + x.i.val), x.pc, x.lane) ∈ t.boot.opens) ∧
      t.boot.bistMod.getLsbD s.boot.group = !mf.getLsbD 0 ∧ t.mgmt = s.mgmt ∧ t.dram = s.dram)

/-- A go write with the next sequence number adds a good block to the stream and answers it in the done word, and a
bad one leaves the stream as it is; a sender other than the deliverer is refused; the last block starts verification.
A verification that fails makes the ROM the loader, and one that succeeds loads the image; either way the stream is
gone. 100 ms without a block end a delivery. Clauses that rest on the model's choices follow log entries 2, 8 and 38.
-/
def Obligations.ImageDelivery : Prop :=
  (∀ (who : Ident) (v : Word) (s : State), s.mgmtOn = true → (s.mgmt.fw.st = .rom ∨ s.mgmt.fw.st = .loader) →
    s.mgmt.fw.started = false → (s.boot.deliverer = none ∨ s.boot.deliverer = some who) → s.boot.stageOpen = true →
    s.boot.verifying = false → v.extractLsb' 0 16 ≠ 0 →
    v.extractLsb' 0 16 = (if s.boot.deliverer.isSome then s.boot.done.extractLsb' 0 16 + 1 else 1) →
    (blockStatus s.boot.stream (s.stageBytes (min (s.stageWord 4).toNat 65472)) (s.stageWord 4).toNat
        (s.stageWord 8).toNat = 1 →
      ∃ t, exec (.stagingGo who v) s = .next t ∧
        t.boot.stream = s.boot.stream ++ s.stageBytes (min (s.stageWord 4).toNat 65472) ∧
        t.boot.done = w32 ((if v.getLsbD 16 then 2 else 1) * 2 ^ 16 + (v.extractLsb' 0 16).toNat) ∧
        t.boot.verifying = v.getLsbD 16 ∧ t.boot.deliverer = some who ∧ t.boot.acceptedAt = s.now ∧
        (∀ k, k ≠ 0 → t.mb k = s.mb k) ∧ t.hlm = s.hlm ∧ t.chan = s.chan ∧ t.dram = s.dram) ∧
    (blockStatus s.boot.stream (s.stageBytes (min (s.stageWord 4).toNat 65472)) (s.stageWord 4).toNat
        (s.stageWord 8).toNat ≠ 1 →
      ∃ t, exec (.stagingGo who v) s = .next t ∧ t.boot.stream = s.boot.stream ∧ t.boot.verifying = false ∧
        t.boot.done = w32 (blockStatus s.boot.stream (s.stageBytes (min (s.stageWord 4).toNat 65472))
          (s.stageWord 4).toNat (s.stageWord 8).toNat * 2 ^ 16 + (v.extractLsb' 0 16).toNat) ∧
        (∀ k, k ≠ 0 → t.mb k = s.mb k) ∧ t.hlm = s.hlm ∧ t.chan = s.chan ∧ t.dram = s.dram)) ∧
  (∀ (who w : Ident) (v : Word) (s : State), s.mgmtOn = true → (s.mgmt.fw.st = .rom ∨ s.mgmt.fw.st = .loader) →
    s.boot.deliverer = some w → w ≠ who → exec (.stagingGo who v) s = .next (answered s (.err errDENIED))) ∧
  (∀ (s : State), s.boot.verifying = true → s.boot.ph = .cold 10 → s.mgmt.fw.commitOn = none →
    ∃ t, exec .imageVerifyDone s = .next t ∧ t.boot.verifying = false ∧ t.boot.stream = [] ∧ t.boot.deliverer = none ∧
      t.boot.done = w32 (s.verdict * 2 ^ 16 + (s.boot.done.extractLsb' 0 16).toNat) ∧
      (if s.verdict = 3
        then t.boot.ph = .cold 11 ∧ t.boot.stageOpen = false ∧ t.mgmt.fw.running = imgHdr s.boot.stream ∧
          t.mgmt.fw.sram = cellsOf 0 (s.boot.stream.drop 440) ∧ t.mgmt.fw.started = true
        else t.boot.ph = .cold 9 ∧ t.mgmt.fw.st = .loader ∧ t.mgmt.fw.running = s.mgmt.fw.running ∧
          t.mgmt.fw.sram = s.mgmt.fw.sram) ∧
      t.hlm = s.hlm ∧ t.chan = s.chan ∧ t.dram = s.dram) ∧
  (∀ (w : Ident) (s : State), s.boot.deliverer = some w → s.boot.verifying = false →
    exec .deliveryTimeout s = .next ((s.advance (s.boot.acceptedAt + 100000000)).updBoot fun b =>
      { b with deliverer := none, stream := [], done := 0 }))

/-- The fuse port. ack ends the request; a program operation sets bits and clears none, and every other word stays; a
boot reading takes two reads for each word; the first read is kept. The trim loader takes one read for each word. ack
low lets the next request go. A read without ack ends after 100 us, and a program operation after 1 ms, with FAULT for
its command. Clauses that rest on the model's choices follow log entries 2, 25 and 31. FUSE_READ, FUSE_SHADOW,
FUSE_PROGRAM and FUSE_LOCK that pass their checks: the fuse controller takes the command, and a shadow is set or
cleared at once. Clauses that rest on the model's choices follow log entry 44. -/
def Obligations.Fuses : Prop :=
  ((∀ (d : BitVec 39) (a : Nat) (s : State), s.mgmt.fuse.req = true → s.mgmt.fuse.want = .prog → s.mgmt.fuse.cmd = none →
     ∃ t, exec (.fuseOpAck d) s = .next t ∧ t.mgmt.fuse.req = false ∧ t.mgmt.fuse.ackHigh = true ∧
       t.mgmt.fuse.words = wordPut s.mgmt.fuse.addr (s.mgmt.fuse.raw s.mgmt.fuse.addr ||| s.mgmt.fuse.wdata)
         s.mgmt.fuse.words ∧
       (a ≠ s.mgmt.fuse.addr → t.mgmt.fuse.raw a = s.mgmt.fuse.raw a) ∧
       t.mgmt.mb = s.mgmt.mb ∧ t.hlm = s.hlm ∧ t.chan = s.chan ∧ t.boot = s.boot) ∧
   (∀ (d : BitVec 39) (s : State), s.mgmt.fuse.req = true → s.mgmt.fuse.want = .boot → s.mgmt.fuse.first = none →
     exec (.fuseOpAck d) s = .next (s.updFuse fun f => { f with req := false, ackHigh := true, first := some (some d) })) ∧
   (∀ (d : BitVec 39) (s : State), s.mgmt.fuse.req = true → s.mgmt.fuse.want = .boot →
     s.mgmt.fuse.first = some (some d) → (fuseDecode d).isSome = true →
     ∃ t, exec (.fuseOpAck d) s = .next t ∧ t.boot = { s.boot with readAt := s.boot.readAt + 1 } ∧
       t.mgmt.fuse.words = wordPut s.mgmt.fuse.addr d s.mgmt.fuse.words ∧ t.mgmt.fuse.marginal = s.mgmt.fuse.marginal ∧
       t.mgmt.fuse.unusable = s.mgmt.fuse.unusable ∧ t.hlm = s.hlm ∧ t.chan = s.chan) ∧
   (∀ (d : BitVec 39) (s : State), s.mgmt.fuse.req = true → s.mgmt.fuse.want = .trim → s.boot.ph = .cold 2 →
     s.boot.readAt < 24 → ∃ t, exec (.fuseOpAck d) s = .next t ∧ t.boot = { s.boot with readAt := s.boot.readAt + 1 } ∧
       t.clk = { s.clk with trims := true } ∧ t.mgmt.fuse.req = false ∧ t.mgmt.fuse.ackHigh = true ∧
       t.mgmt.fuse.words = wordPut (trimAddr s.boot.readAt) d s.mgmt.fuse.words ∧ t.hlm = s.hlm ∧ t.chan = s.chan) ∧
   (∀ (s : State), s.boot.ph = .off → exec .fuseAckLow s = .next (s.updFuse fun f => { f with ackHigh := false })) ∧
   (∀ (a : Nat) (w : BitVec 39) (r : List (Nat × BitVec 39)) (s : State), s.boot.ph = .up → s.mgmt.fuse.req = false →
     s.mgmt.fuse.cmd = none → s.mgmt.fuse.jobOps = (a, w) :: r →
     exec .fuseAckLow s = .next (s.updFuse fun f => { f with ackHigh := false, req := true, addr := a, want := .prog,
                                                             wdata := w, reqAt := s.now })) ∧
   (∀ (s : State), s.mgmt.fuse.req = true → s.mgmt.fuse.want = .boot → s.mgmt.fuse.first = none →
     exec .fuseReadTimeout s = .next ((s.advance (s.mgmt.fuse.reqAt + 100000)).updFuse fun f =>
       { f with req := false, ackHigh := true, first := some none })) ∧
   (∀ (c : FuseCmd) (k : Mb) (tag : BitVec 2) (s : State), s.mgmt.fuse.req = true → s.mgmt.fuse.want = .prog →
     s.mgmt.fuse.cmd = some c → c.by_ = some (k, tag) → ((s.mb k).cmds.find? (·.tag = tag)).isSome = true →
     ∃ t, exec .fuseProgramTimeout s = .next t ∧ t.clk.now = max s.clk.now (s.mgmt.fuse.reqAt + 1000000) ∧
       t.mgmt.fuse.req = false ∧ t.mgmt.fuse.ackHigh = true ∧ t.mgmt.fuse.cmd = none ∧
       (∃ a, (t.mb k).answers = (s.mb k).answers ++ [a] ∧ a.tag = tag ∧ a.status = 0xA ∧ a.result = BitVec.ofNat 8 c.done) ∧
       (∀ j, j ≠ k → t.mb j = s.mb j) ∧ t.hlm = s.hlm ∧ t.chan = s.chan)) ∧
  ((∀ (k : Mb) (tag : BitVec 2) (w : Word) (s : State), Asks s k tag w → argBits w 0 6 = 0 → s.cmdBusy k tag = false →
     s.mgmt.fuse.cmd = none → s.mgmt.fuse.ackHigh = true →
     (cmdOpcode w = 0x58 → s.winField k w 1 1 ≤ 1 → s.winField k w 2 2 ≠ 0 → s.winField k w 2 2 ≤ 64 →
       fuseSpan (s.winField k w 0 1) (s.winField k w 4 2) (s.winField k w 2 2) = true → s.winField k w 0 1 ≠ 5 →
       winBase w + 16 + 8 * s.winField k w 2 2 ≤ 4096 →
       exec (.fuseRead k tag) s = .next ((goesOn s k tag).updFuse fun f => { f with cmd := some {
         by_ := some (k, tag), op := 0x58, region := s.winField k w 0 1, off := s.winField k w 4 2,
         count := s.winField k w 2 2, done := 0, base := winBase w, margin := s.winField k w 1 1 == 1, vals := [], stage := 0,
         progs := [] } })) ∧
     (cmdOpcode w = 0x5A → s.winField k w 2 2 ≠ 0 → s.winField k w 2 2 ≤ 16 →
       fuseSpan (s.winField k w 0 1) (s.winField k w 4 2) (s.winField k w 2 2) = true → s.winField k w 0 1 ≤ 4 →
       s.mgmt.fuse.locked.getLsbD (s.winField k w 0 1) = false → winBase w + 8 + 4 * s.winField k w 2 2 ≤ 4096 →
       exec (.fuseProgram k tag) s = .next ((goesOn s k tag).updFuse fun f => { f with cmd := some {
         by_ := some (k, tag), op := 0x5A, region := s.winField k w 0 1, off := s.winField k w 4 2,
         count := s.winField k w 2 2, done := 0, base := winBase w, margin := false,
         vals := (List.range (s.winField k w 2 2)).map fun i => w32 (s.winField k w (8 + 4 * i) 4), stage := 0,
         progs := [] } }))) ∧
   (∀ (k : Mb) (tag : BitVec 2) (w : Word) (s : State), Asks s k tag w → cmdOpcode w = 0x59 → argBits w 0 6 = 0 →
     fuseSpan (s.winField k w 0 1) (s.winField k w 4 2) 1 = true → s.winField k w 0 1 ≤ 3 →
     (s.winField k w 1 1 = 0 →
       (s.mgmt.fuse.unshadow (s.winField k w 0 1) (s.winField k w 4 2)).length < 32 →
       exec (.fuseShadowSet k tag) s = .next (ended (s.updFuse fun f => ({ f with
         shadows := f.unshadow (s.winField k w 0 1) (s.winField k w 4 2) ++
           [(s.winField k w 0 1, s.winField k w 4 2, w32 (s.winField k w 8 4))] } : Machine.Fuses).takeAon (s.winField k w 0 1)
             (s.winField k w 4 2)) k tag 0x59 0 0)) ∧
     (s.winField k w 1 1 = 1 → exec (.fuseShadowClear k tag) s = .next (ended (s.updFuse fun f => ({ f with
       shadows := f.unshadow (s.winField k w 0 1) (s.winField k w 4 2) } : Machine.Fuses).takeAon (s.winField k w 0 1)
         (s.winField k w 4 2)) k tag 0x59 0 0))) ∧
   (∀ (k : Mb) (tag : BitVec 2) (w : Word) (s : State), Asks s k tag w → cmdOpcode w = 0x5B → argBits w 4 8 = 0 →
     argBits w 0 3 < 6 → argBits w 3 1 = 1 → s.cmdBusy k tag = false → s.mgmt.fuse.cmd = none →
     s.mgmt.fuse.ackHigh = true →
     s.mgmt.fuse.locked.getLsbD (argBits w 0 3) = false →
     exec (.fuseLock k tag) s = .next ((goesOn s k tag).updFuse fun f => { f with cmd := some {
       by_ := some (k, tag), op := 0x5B, region := argBits w 0 3, off := 0, count := 1, done := 0, base := 0, margin := false,
       vals := [], stage := 3, progs := lockOps (argBits w 0 3) } })))

/-- Information, ownership, log and resets: GET_VERSION in both forms, SET_MAILBOX_OWNER for another channel, once the
commands taken from it have started (log entry 78), SCRUB_STATUS and SCRUB_ABORT, LOG_CONFIG, BIST_RESULTS, ATTEST,
FW_STAGE, FW_COMMIT and the kinds of RESET. A layout's fields are written at their offsets of the window, a result is
answered OK. Clauses that rest on the model's choices follow log entries 8 and 44. -/
def Obligations.ExauxInfo : Prop :=
  (∀ (k : Mb) (tag : BitVec 2) (w : Word) (s : State), Asks s k tag w → cmdOpcode w = 0x01 →
    (cmdArg w = 0 → exec (.getVersion k tag) s = .next (ended s k tag 0x01 0 0x10)) ∧
    (argBits w 0 2 = 1 → argBits w 2 4 = 0 → exec (.getVersion k tag) s = .next (ended (s.updMb k fun b => { b with
      win := fieldsPut b.win w [(0, 4, 0x100), (4, 4, Config.fwVersion.toNat), (8, 4, Config.romVersion.toNat),
        (0xC, 4, s.mgmt.fw.running.secVer.toNat), (0x10, 4, 0x10), (0x14, 4, 0)] }) k tag 0x01 0 0x10))) ∧
  (∀ (k j : Mb) (tag : BitVec 2) (w : Word) (p : Nat) (s : State), Asks s k tag w → cmdOpcode w = 0x08 →
    argBits w 4 2 = 0 → p = s.winField k w 0 2 → (p < 320 ∨ p = 0x1FF) → j = Fin.ofNat 24 (argBits w 0 4) → j ≠ k →
    (s.mb j).waiting = [] → (∀ c ∈ (s.mb j).cmds, c.running = true) →
    ∃ t, exec (.setMailboxOwner k tag) s = .next t ∧
      t.mb j = { owner := if p = 0x1FF then none else some (BitVec.ofNat 11 p) } ∧
      t.mb k = (ended s k tag 0x08 0 0).mb k ∧ (∀ i, i ≠ j → i ≠ k → t.mb i = s.mb i) ∧ t.hlm = s.hlm ∧
      t.dram = s.dram) ∧
  (∀ (k : Mb) (tag : BitVec 2) (w : Word) (s : State), Asks s k tag w → cmdOpcode w = 0x08 →
    argBits w 4 2 = 0 → (s.winField k w 0 2 < 320 ∨ s.winField k w 0 2 = 0x1FF) →
    (∃ c ∈ (s.mb (Fin.ofNat 24 (argBits w 0 4))).cmds, c.running = false) → exec (.setMailboxOwner k tag) s = .next s) ∧
  (∀ (k : Mb) (tag : BitVec 2) (w : Word) (s : State), Asks s k tag w → cmdOpcode w = 0x2A → cmdArg w = 0 →
    exec (.scrubStatus k tag) s = .next (ended s k tag 0x2A 0 (if s.mgmt.scrub.running
      then BitVec.ofNat 8 (128 + 100 * s.visitedLines / (s.mgmt.scrub.len / 64)) else 0))) ∧
  (∀ (k : Mb) (tag : BitVec 2) (w : Word) (s : State), Asks s k tag w → cmdOpcode w = 0x29 → cmdArg w = 0 →
    s.mgmt.scrub.running = true → s.mgmt.scrub.mb = some k →
    ∃ t, exec (.scrubAbort k tag) s = .next t ∧ t.mgmt.scrub = { s.mgmt.scrub with aborted := true } ∧
      (∀ n, t.chan.get n = { (s.chan.get n) with share := false }) ∧ t.mb k = (ended s k tag 0x29 0 0).mb k ∧
      t.hlm = s.hlm ∧ t.dram = s.dram) ∧
  (∀ (k : Mb) (tag : BitVec 2) (w : Word) (s : State), Asks s k tag w → cmdOpcode w = 0x70 → argBits w 0 6 = 0 →
    (s.winField k w 0 4 = 0 → exec (.logConfigGet k tag) s = .next (ended (s.updMb k fun b => { b with
      win := fieldsPut b.win w [(4, 4, s.mgmt.log.verbosity.toNat), (8, 48, s.mgmt.log.mask.toNat)] }) k tag 0x70 0 0)) ∧
    (s.winField k w 0 4 = 1 → s.winField k w 4 4 ≤ 3 → s.winField k w 8 48 < 2 ^ 360 →
      exec (.logConfigSet k tag) s = .next (ended (s.updLog fun l => { l with
        verbosity := BitVec.ofNat 2 (s.winField k w 4 4), mask := BitVec.ofNat 360 (s.winField k w 8 48) })
        k tag 0x70 0 0)) ∧
    (s.winField k w 0 4 = 2 → s.mgmt.log.openPkt = none →
      exec (.logConfigFlush k tag) s = .next (ended ((s.updLog fun l => { l with
        fill := [logHeader 0 false true 0 0], drain := [], drops := 0, swapDue := false, gap := true, dropRun := false,
        flushes := l.flushes + 1, firstClosed := some s.now }).levelCheck s.mgmt.log.unread) k tag 0x70 0 0))) ∧
  (∀ (k : Mb) (tag : BitVec 2) (w : Word) (s : State), Asks s k tag w → cmdOpcode w = 0x74 → argBits w 0 6 = 0 →
    exec (.bistResults k tag) s = .next (ended (s.updMb k fun b => { b with
      win := fieldsPut b.win w [(0, 8, s.boot.bistCh.toNat), (8, 4, s.boot.bistMod.toNat), (0xC, 4, s.boot.bistMgmt.toNat),
        (0x10, 8, s.map.trainFail.toNat), (0x18, 4, s.boot.groupsRun.toNat), (0x1C, 4, 0)] }) k tag 0x74 0
        (BitVec.ofNat 8 (min 255 s.failedBlocks)))) ∧
  (∀ (k : Mb) (tag : BitVec 2) (w : Word) (s : State), Asks s k tag w → cmdOpcode w = 0x60 →
    winBase w + 0x140 ≤ 4096 → argBits w 0 6 = 0 → s.cmdBusy k tag = false →
    (∀ x, s.mgmt.fuse.secret = some x → ∀ d, s.mgmt.fuse.digest 0 = some d →
      ∃ t, exec (.attest k tag) s = .next t ∧ (t.mb k).answers = ((ended s k tag 0x60 0 0).mb k).answers ∧
        (t.mb k).cmds = ((ended s k tag 0x60 0 0).mb k).cmds ∧ (∀ i, i ≠ k → t.mb i = s.mb i) ∧
        t.mgmt.fuse = s.mgmt.fuse ∧ t.hlm = s.hlm ∧ t.chan = s.chan) ∧
    (s.mgmt.fuse.secret = none → exec (.attest k tag) s = .next (ended s k tag 0x60 0xA 0))) ∧
  (∀ (k : Mb) (tag : BitVec 2) (w : Word) (s : State), Asks s k tag w → cmdOpcode w = 0x68 →
    winBase w + 440 ≤ 4096 → argBits w 0 6 = 0 → hdrBad (s.winBytes k (winBase w) 440) = false →
    s.cmdBusy k tag = false →
    exec (.fwStage k tag) s = .next (
      if s.mgmt.fuse.signed (imgHdr (s.winBytes k (winBase w) 440)) = true ∧
          s.mgmt.fw.running.secVer.toNat ≤ (imgHdr (s.winBytes k (winBase w) 440)).secVer.toNat
      then ended (s.updFw fun f => { f with staged := some (imgHdr (s.winBytes k (winBase w) 440)) }) k tag 0x68 0 0
      else ended s k tag 0x68 0xB 0)) ∧
  (∀ (k : Mb) (tag : BitVec 2) (w : Word) (s : State), Asks s k tag w → cmdOpcode w = 0x69 → cmdArg w = 0 →
    s.mgmt.fw.staged.isSome = true →
    exec (.fwCommit k tag) s =
      .next (ended (s.updFw fun f => { f with resetAsks := f.resetAsks ++ [(k, tag, false)] }) k tag 0x69 0 0)) ∧
  (∀ (k : Mb) (tag : BitVec 2) (w : Word) (s : State), Asks s k tag w → cmdOpcode w = 0x78 →
    (cmdArg w = 0x100 → exec (.resetWarm k tag) s =
      .next (ended (s.updFw fun f => { f with resetAsks := f.resetAsks ++ [(k, tag, true)] }) k tag 0x78 0 0)) ∧
    (cmdArg w = 0x300 → exec (.resetPriri k tag) s =
      .next (ended (s.updFw fun f => { f with resetAsks := f.resetAsks ++ [(k, tag, false)] }) k tag 0x78 0 0))) ∧
  (∀ (k : Mb) (tag : BitVec 2) (w : Word) (n : Ch) (s : State), Asks s k tag w → cmdOpcode w = 0x78 →
    argBits w 8 4 = 2 → argBits w 6 2 = 0 → n = Fin.ofNat 64 (argBits w 0 6) → s.boot.ph = .up →
    s.map.isJoined n = false → s.map.inTrans n = false → s.map.mapped.getLsbD n.val = true →
    s.map.lost.getLsbD n.val = false → (s.chan.get n).inReset = false →
    ∃ t, exec (.resetChannel k tag) s = .next t ∧ (t.chan.get n).inReset = true ∧ (t.chan.get n).resetBy = [(k, tag)] ∧
      (t.chan.get n).st.tt = [] ∧ (t.chan.get n).st.pwr = .selfRefresh ∧ (t.chan.get n).cnt = {} ∧
      (t.chan.get n).cfg = (s.chan.get n).cfg ∧ (∀ j, j ≠ n → t.chan.get j = s.chan.get j) ∧ t.port = s.port ∧
      t.map = s.map)

/-- Power, thermal, refresh and tracker policy: POWER_STATE, its idle policy and the expiry of that policy,
THERMAL_POLICY, REFRESH_FLOOR and TRACKER_POLICY. Clauses that rest on the model's choices follow log entries 10 and
42. -/
def Obligations.ExauxPolicy : Prop :=
  (∀ (k : Mb) (tag : BitVec 2) (w : Word) (s : State), Asks s k tag w → cmdOpcode w = 0x10 → argBits w 10 2 = 0 →
    argBits w 2 2 = 0 → argBits w 0 2 ≠ 3 → s.pwr.bySr = false →
    (argBits w 8 2 = 0 → argBits w 0 2 ≠ 0 ∨ (s.pwr.state ≠ .chrysMgmt ∧ s.pwr.ph ≠ .defer) →
      exec (.powerStateEnter k tag) s =
        .next (ended (s.updPwr fun p => { p with target := w.extractLsb' 0 2 }) k tag 0x10 0 0)) ∧
    (argBits w 8 2 = 1 → argBits w 0 2 ≠ 0 → exec (.powerStateSetIdle k tag) s = .next (ended (s.updFw fun f => { f with
      idle := some { target := w.extractLsb' 0 2, ms := 2 ^ argBits w 4 4 } }) k tag 0x10 0 0)) ∧
    (argBits w 8 2 = 2 → exec (.powerStateClearIdle k tag) s =
      .next (ended (s.updFw fun f => { f with idle := none }) k tag 0x10 0 0))) ∧
  (∀ (i : Idle) (s : State), s.mgmt.fw.idle = some i → s.mgmtOn = true → s.mgmt.fw.st = .ready → s.pwr.ph = .none →
    s.quietNow = true → s.owesPower = false → s.pwr.state = .imago → s.pwr.lossSeq = none → s.pwr.lossHold = false →
    s.clk.pllLock = true → (i.target = 1 ∨ i.target = 2) →
    exec .idlePolicyExpiry s = .next (((s.advance (s.quietSince + i.ms * 1000000)).updFw fun f =>
      { f with waiting := true }).updPwr fun p =>
        { p with from_ := .imago, target := i.target, ph := .defer, bySr := false,
                 deferAt := max s.now (s.quietSince + i.ms * 1000000),
                 state := if i.target = 1 then .toPupa else .toChrysalis })) ∧
  (∀ (k : Mb) (tag : BitVec 2) (w : Word) (s : State), Asks s k tag w → cmdOpcode w = 0x18 → argBits w 2 4 = 0 →
    (argBits w 0 2 = 0 → exec (.thermalPolicyGet k tag) s = .next (ended (s.updMb k fun b => { b with
      win := fieldsPut b.win w [(0, 2, s.mgmt.therm.floor.toNat), (2, 2, s.mgmt.therm.bMax.toNat),
        (4, 1, s.mgmt.therm.warn.toNat), (5, 1, s.mgmt.therm.throttle.toNat),
        (6, 2, ratFloorNat s.mgmt.therm.budget 65535), (8, 4, s.mgmt.therm.param 0),
        (0xC, 4, s.mgmt.therm.param 1), (0x10, 4, s.mgmt.therm.param 2), (0x14, 4, s.mgmt.therm.param 3),
        (0x18, 4, s.mgmt.therm.param 4), (0x1C, 4, s.mgmt.therm.param 5), (0x20, 4, s.mgmt.therm.param 6)] }) k tag 0x18 0 0)) ∧
    (argBits w 0 2 = 1 → s.winField k w 0 1 ≤ 64 → s.winField k w 1 1 = 0 →
      exec (.thermalPolicySetFloor k tag) s = .next (ended (s.updTherm fun t => { t with
        pendFloor := some (BitVec.ofNat 7 (s.winField k w 0 1), BitVec.ofNat 16 (s.winField k w 2 2)) }) k tag 0x18 0 0)) ∧
    (argBits w 0 2 = 2 → 60 ≤ s.winField k w 4 1 → s.winField k w 4 1 ≤ 90 → 65 ≤ s.winField k w 5 1 →
      s.winField k w 5 1 ≤ 95 → s.winField k w 4 1 + 5 ≤ s.winField k w 5 1 →
      exec (.thermalPolicySetThresholds k tag) s = .next (ended (s.updTherm fun t => { t with
        pendThr := some (BitVec.ofNat 8 (s.winField k w 4 1), BitVec.ofNat 8 (s.winField k w 5 1)) }) k tag 0x18 0 0))) ∧
  (∀ (k : Mb) (tag : BitVec 2) (w : Word) (n : Ch) (s : State), Asks s k tag w → cmdOpcode w = 0x20 →
    argBits w 10 2 = 0 → argBits w 2 2 = 0 → argBits w 0 2 ≠ 3 → n = Fin.ofNat 64 (argBits w 4 6) →
    s.map.mapped.getLsbD n.val = true →
    ∃ t, exec (.refreshFloor k tag) s = .next t ∧ t.mgmt.fw.hostFloor.get n = w.extractLsb' 0 2 ∧
      (t.chan.get n).cfg.rateMin.toNat = max (w.extractLsb' 0 2).toNat (s.mgmt.fw.modelFloor.get n).toNat ∧
      (∀ j, j ≠ n → t.mgmt.fw.hostFloor.get j = s.mgmt.fw.hostFloor.get j) ∧
      (∀ j, (t.chan.get j).st = (s.chan.get j).st) ∧ t.mb k = (ended s k tag 0x20 0 0).mb k ∧ t.hlm = s.hlm ∧
      t.dram = s.dram) ∧
  (∀ (k : Mb) (tag : BitVec 2) (w : Word) (n : Ch) (s : State), Asks s k tag w → cmdOpcode w = 0x21 →
    argBits w 2 4 = 0 → argBits w 0 2 = 0 → s.winField k w 0 4 = n.val → s.map.mapped.getLsbD n.val = true →
    exec (.trackerPolicy k tag) s = .next (ended (s.updChan n fun c =>
      { c with cfg := { c.cfg with thresh := 0x800, pace := 0 } }) k tag 0x21 0 0))

/-- Scrub, remap, repair, lanes, pairs and channels: a command that passes its checks puts its work in hand, and its
answer waits for the end, or is OK at once where R489 has it so. Clauses that rest on the model's choices follow log
entries 31 and 43. -/
def Obligations.ExauxRepair : Prop :=
  (∀ (k : Mb) (tag : BitVec 2) (w : Word) (s : State), Asks s k tag w → cmdOpcode w = 0x28 → argBits w 0 6 = 0 →
    winBase w + 928 ≤ 4096 → s.winField k w 0 8 % 64 = 0 → s.winField k w 8 8 % 64 = 0 → s.winField k w 8 8 ≠ 0 →
    s.winField k w 0 8 + s.winField k w 8 8 ≤ s.map.capacity → s.winField k w 0x10 4 < 3 →
    s.winField k w 0x14 4 ≤ 1048575 → s.mgmt.scrub.held = false → s.mgmt.scrub.running = false → s.map.joined = 0 →
    ∃ t, exec (.scrubStart k tag) s = .next t ∧ t.mgmt.scrub.running = true ∧ t.mgmt.scrub.held = true ∧
      t.mgmt.scrub.mb = some k ∧ t.mgmt.scrub.start = s.winField k w 0 8 ∧ t.mgmt.scrub.len = s.winField k w 8 8 ∧
      t.mgmt.scrub.mode = BitVec.ofNat 2 (s.winField k w 0x10 4) ∧ t.mgmt.scrub.pace = s.winField k w 0x14 4 ∧
      t.mgmt.scrub.clipped = false ∧ t.mgmt.scrub.scanned = 0 ∧ t.mgmt.scrub.startAt = s.now ∧
      t.mb k = (ended s k tag 0x28 0 0).mb k ∧
      (∀ n, (t.chan.get n).visited = [] ∧ (t.chan.get n).st = (s.chan.get n).st) ∧ t.hlm = s.hlm ∧ t.dram = s.dram) ∧
  (∀ (k : Mb) (tag : BitVec 2) (w : Word) (d : Dec) (i : Fin 16) (s : State), Asks s k tag w → cmdOpcode w = 0x30 →
    argBits w 0 6 = 0 → s.winField k w 0 8 % 64 = 0 → s.winField k w 0 8 < s.map.capacity →
    d = s.map.decode (BitVec.ofNat 40 (s.winField k w 0 8)) → d.status = 0 → s.map.isJoined d.chan = false →
    s.cmdBusy k tag = false → s.seqHeld d.chan = false → (s.chan.get d.chan).inReset = false → (s.chan.get d.chan).remapOf d.loc = none →
    (List.finRange 16).find? (fun j => ((s.chan.get d.chan).remap.get j).st == .free) = some i →
    (s.chan.get d.chan).canTake s.now (s.chan.get d.chan).cfg.maintCls = true →
    ∃ t, exec (.remapInstall k tag) s = .next t ∧ ((t.chan.get d.chan).remap.get i).st = .filling ∧
      ((t.chan.get d.chan).remap.get i).loc = d.loc ∧
      (∃ j, t.mgmt.fw.remapJobs = s.mgmt.fw.remapJobs ++ [j] ∧ j.n = d.chan ∧ j.i = i ∧ j.by_ = some (k, tag) ∧
        j.release = false ∧ j.waits = false ∧ j.loc = d.loc) ∧
      t.mb k = (goesOn s k tag).mb k ∧ (∀ n, n ≠ d.chan → t.chan.get n = s.chan.get n) ∧ t.hlm = s.hlm ∧
      t.dram = s.dram) ∧
  (∀ (k : Mb) (tag : BitVec 2) (w : Word) (n : Ch) (i : Fin 16) (s : State), Asks s k tag w → cmdOpcode w = 0x31 →
    argBits w 10 2 = 0 → n = Fin.ofNat 64 (argBits w 4 6) → i = Fin.ofNat 16 (argBits w 0 4) →
    s.cmdBusy k tag = false → s.seqHeld n = false →
    (((s.chan.get n).remap.get i).st = .live ∨ ((s.chan.get n).remap.get i).st = .poisoned) →
    (s.chan.get n).remapOf ((s.chan.get n).remap.get i).loc = some i → s.map.isJoined n = false → s.map.inTrans n = false →
    (s.chan.get n).inReset = false → s.isGone n = false →
    (s.chan.get n).canTake s.now (s.chan.get n).cfg.maintCls = true →
    ∃ t, exec (.remapRelease k tag) s = .next t ∧ t.mgmt.fw.remapJobs = s.mgmt.fw.remapJobs ++
      [{ n := n, i := i, loc := ((s.chan.get n).remap.get i).loc, by_ := some (k, tag), release := true, waits := false }] ∧
      t.mb k = (goesOn s k tag).mb k ∧ (t.chan.get n).remap = (s.chan.get n).remap ∧
      (∀ j, j ≠ n → t.chan.get j = s.chan.get j) ∧ t.hlm = s.hlm ∧ t.dram = s.dram) ∧
  (∀ (k : Mb) (tag : BitVec 2) (w : Word) (n : Ch) (i : Fin 16) (s : State), Asks s k tag w → cmdOpcode w = 0x31 →
    argBits w 10 2 = 0 → n = Fin.ofNat 64 (argBits w 4 6) → i = Fin.ofNat 16 (argBits w 0 4) →
    s.cmdBusy k tag = false → s.seqHeld n = false →
    (((s.chan.get n).remap.get i).st = .free ∨ ((s.chan.get n).remap.get i).st = .filling ∨ s.map.isFollower n = true →
      exec (.remapRelease k tag) s = .next (ended s k tag 0x31 6 0)) ∧
    (((s.chan.get n).remap.get i).st = .live → s.map.isFollower n = false → s.isGone n = true →
      exec (.remapRelease k tag) s = .next (ended s k tag 0x31 0xA 0))) ∧
  (∀ (k : Mb) (tag : BitVec 2) (w v : Word) (s : State), Asks s k tag w → argBits w 0 6 = 0 →
    v = w32 (s.winField k w 0 4) → s.locBad v = false → s.cmdBusy k tag = false → s.seqHeld (recChan v) = false →
    (cmdOpcode w = 0x38 → s.notServing (recChan v) = false → s.resLeft (recChan v) (recLoc v 0) false = true →
      exec (.pprSoft k tag) s = .next (goesOn (s.updChan (s.map.server (recChan v)) fun c => { c with
        repair := some { hard := false, loc := recLoc v 0, phase := 0, nextRd := 0, done := 0, startAt := s.now,
                         buf := List.replicate 16 (0, false), by_ := some (k, tag) } }) k tag)) ∧
    (cmdOpcode w = 0x39 → s.resLeft (recChan v) (recLoc v 0) true = true →
      (∃ c ∈ (s.mb k).cmds, c.tag = tag ∧ c.idle = true) → s.isGone (recChan v) = false →
      exec (.pprHard k tag) s = .next (goesOn (s.updChan (s.map.server (recChan v)) fun c => { c with
        repair := some { hard := true, loc := recLoc v 0, phase := 0, nextRd := 0, done := 0, startAt := s.now,
                         buf := List.replicate 16 (0, false), by_ := some (k, tag) } }) k tag))) ∧
  (∀ (k : Mb) (tag : BitVec 2) (w : Word) (v : Nat) (n : Ch) (p : Pc) (lane : Fin 36) (i : Fin 2) (s : State),
    Asks s k tag w → cmdOpcode w = 0x40 → argBits w 0 6 = 0 → v = s.winField k w 0 4 →
    v = n.val + 64 * p.val + 256 * lane.val → ((s.chan.get n).pc.get p).freeSpare = some i →
    ((s.chan.get n).pc.get p).sel = none → s.map.mapped.getLsbD n.val = true → s.isGone n = false →
    ∃ t, exec (.laneSpare k tag) s = .next t ∧
      t.chan = (s.updChan n fun c => c.updPc p fun g => { g with sel := some (i, lane) }).chan ∧
      t.mgmt.fw.laneJobs = s.mgmt.fw.laneJobs ++
        [{ n := n, lane := lane.val, pc := some p, mb := some k, tag := tag, answered := false }] ∧
      t.mgmt.fw.urgent.contains { n := s.map.server n, pc := some p, sched := false } = true ∧
      t.mb k = (goesOn s k tag).mb k ∧ t.hlm = s.hlm ∧ t.dram = s.dram) ∧
  (∀ (k : Mb) (tag : BitVec 2) (w : Word) (c : PairIx) (s : State), Asks s k tag w → cmdOpcode w = 0x48 →
    argBits w 6 6 = 0 → c = Fin.ofNat 32 (argBits w 0 5) → s.cmdBusy k tag = false → s.pairBusy c = false →
    (argBits w 5 1 = 1 → s.map.joined.getLsbD c.val = false → s.unmapped (leader c) = false →
      s.unmapped (follower c) = false → s.map.hole.getLsbD (leader c).val = false →
      s.map.hole.getLsbD (follower c).val = false →
      remapLocs (s.chan.get (leader c)) (s.chan.get (follower c)) ≤ 16 →
      exec (.twinwingEnter k tag) s = .next (goesOn (s.updFw fun f => { f with
        twinJobs := f.twinJobs ++ [{ c := c, entry := true, by_ := some (k, tag) }] }) k tag)) ∧
    (argBits w 5 1 = 0 → s.map.joined.getLsbD c.val = true →
      exec (.twinwingExit k tag) s = .next (goesOn (s.updFw fun f => { f with
        twinJobs := f.twinJobs ++ [{ c := c, entry := false, by_ := some (k, tag) }] }) k tag))) ∧
  (∀ (k : Mb) (tag : BitVec 2) (w : Word) (n : Ch) (s : State), Asks s k tag w → cmdOpcode w = 0x50 →
    argBits w 10 2 = 0 → argBits w 6 2 = 0 → n = Fin.ofNat 64 (argBits w 0 6) →
    s.cmdBusy k tag = false → s.mgmt.fuse.cmd = none →
    (argBits w 8 2 = 0 → ∃ t, exec (.channelDisablePersistent k tag) s = .next t ∧
      (s.map.mapped.getLsbD n.val = true → t.map.hole.getLsbD n.val = true) ∧
      (t.mb k) = (ended s k tag 0x50 0 (if s.mgmt.fuse.recordFree then 0 else 1)).mb k ∧
      (s.mgmt.fuse.req = true → t.mgmt.fuse.jobs = s.mgmt.fuse.jobs ++
        (if s.mgmt.fuse.recordFree then [.add (chdis n) 0] else [])) ∧ t.hlm = s.hlm ∧ t.dram = s.dram) ∧
    (argBits w 8 2 = 1 → ∃ t, exec (.channelDisableVolatile k tag) s = .next t ∧ t.map.volDis.getLsbD n.val = true ∧
      (s.map.mapped.getLsbD n.val = true → t.map.hole.getLsbD n.val = true) ∧
      (∀ j : Ch, j ≠ n → t.map.volDis.getLsbD j.val = s.map.volDis.getLsbD j.val) ∧
      (t.mb k) = (ended s k tag 0x50 0 0).mb k ∧ t.mgmt.fuse = s.mgmt.fuse ∧ t.hlm = s.hlm ∧ t.dram = s.dram) ∧
    (argBits w 8 2 = 2 → ∃ t, exec (.channelDisableWithdraw k tag) s = .next t ∧
      t.map = { s.map with volDis := s.map.volDis &&& ~~~(BitVec.twoPow 64 n.val) } ∧
      (t.mb k) = (ended s k tag 0x50 0 0).mb k ∧ t.chan = s.chan ∧ t.hlm = s.hlm ∧ t.dram = s.dram))

/-- What a command is refused with, and nothing else happens: reserved argument bits BADARG, a busy unit BUSY, a state
that does not fit STATE, a region that may not be read (FUSE_READ of region 5) or shadowed DENIED, a layout past the
window LENGTH; and the loader answers every command but GET_VERSION and RESET with STATE. Clauses that rest on the
model's choices follow log entry 42. -/
def Obligations.ExauxRefusals : Prop :=
  (∀ (k : Mb) (tag : BitVec 2) (w : Word) (s : State), Asks s k tag w →
    (cmdOpcode w = 0x01 → 1 < argBits w 0 2 → exec (.getVersion k tag) s = .next (ended s k tag 0x01 3 0)) ∧
    (cmdOpcode w = 0x08 → argBits w 4 2 ≠ 0 → exec (.setMailboxOwner k tag) s = .next (ended s k tag 0x08 3 0)) ∧
    (cmdOpcode w = 0x10 → argBits w 8 2 = 3 → exec (.powerStateEnter k tag) s = .next (ended s k tag 0x10 3 0)) ∧
    (cmdOpcode w = 0x20 → argBits w 0 2 = 3 → exec (.refreshFloor k tag) s = .next (ended s k tag 0x20 3 0)) ∧
    (cmdOpcode w = 0x28 → 4096 < winBase w + 928 → exec (.scrubStart k tag) s = .next (ended s k tag 0x28 4 0)) ∧
    (cmdOpcode w = 0x29 → cmdArg w = 0 → s.mgmt.scrub.running = false →
      exec (.scrubAbort k tag) s = .next (ended s k tag 0x29 6 0)) ∧
    (cmdOpcode w = 0x48 → argBits w 5 1 = 1 → argBits w 6 6 = 0 → s.mgmt.scrub.running = true →
      exec (.twinwingEnter k tag) s = .next (ended s k tag 0x48 5 0)) ∧
    (cmdOpcode w = 0x5B → argBits w 0 3 = 7 → exec (.fuseLock k tag) s = .next (ended s k tag 0x5B 3 0)) ∧
    (cmdOpcode w = 0x69 → cmdArg w = 0 → s.mgmt.fw.staged = none →
      exec (.fwCommit k tag) s = .next (ended s k tag 0x69 6 0)) ∧
    (cmdOpcode w = 0x60 → winBase w + 0x140 ≤ 4096 → argBits w 0 6 = 0 → s.cmdBusy k tag = true →
      exec (.attest k tag) s = .next (ended s k tag 0x60 5 0)) ∧
    (cmdOpcode w = 0x58 → argBits w 0 6 = 0 → s.winField k w 0 1 = 5 → s.winField k w 1 1 ≤ 1 → s.winField k w 2 2 ≠ 0 →
      fuseSpan 5 (s.winField k w 4 2) (s.winField k w 2 2) = true → winBase w + 16 + 8 * s.winField k w 2 2 ≤ 4096 →
      exec (.fuseRead k tag) s = .next (ended s k tag 0x58 2 0)) ∧
    (cmdOpcode w = 0x59 → argBits w 0 6 = 0 → 5 < s.winField k w 0 1 → s.winField k w 1 1 = 0 →
      fuseSpan (s.winField k w 0 1) (s.winField k w 4 2) 1 = true →
      exec (.fuseShadowSet k tag) s = .next (ended s k tag 0x59 2 0))) ∧
  (∀ (i : Instr) (op : BitVec 7) (ok : Bool) (k : Mb) (tag : BitVec 2) (c : FwCmd) (s : State),
    (i, op, ok) ∈ [(Instr.setMailboxOwner k tag, 0x08, true), (.refreshFloor k tag, 0x20, true), (.trackerPolicy k tag, 0x21, true),
      (.scrubStart k tag, 0x28, true), (.scrubAbort k tag, 0x29, true), (.scrubStatus k tag, 0x2A, true), (.remapInstall k tag, 0x30, true),
      (.remapRelease k tag, 0x31, true), (.pprSoft k tag, 0x38, true), (.pprHard k tag, 0x39, true), (.laneSpare k tag, 0x40, true),
      (.fuseRead k tag, 0x58, true), (.fuseProgram k tag, 0x5A, true), (.fuseLock k tag, 0x5B, true), (.attest k tag, 0x60, true),
      (.fwStage k tag, 0x68, true), (.fwCommit k tag, 0x69, true), (.bistResults k tag, 0x74, true),
      (.powerStateEnter k tag, 0x10, argBits c.word 8 2 == 0 || argBits c.word 8 2 == 3),
      (.powerStateSetIdle k tag, 0x10, argBits c.word 8 2 == 1), (.powerStateClearIdle k tag, 0x10, argBits c.word 8 2 == 2),
      (.thermalPolicyGet k tag, 0x18, argBits c.word 0 2 == 0 || argBits c.word 0 2 == 3),
      (.thermalPolicySetFloor k tag, 0x18, argBits c.word 0 2 == 1),
      (.thermalPolicySetThresholds k tag, 0x18, argBits c.word 0 2 == 2),
      (.twinwingEnter k tag, 0x48, argBits c.word 5 1 == 1), (.twinwingExit k tag, 0x48, argBits c.word 5 1 == 0),
      (.channelDisablePersistent k tag, 0x50, argBits c.word 8 2 == 0 || argBits c.word 8 2 == 3),
      (.channelDisableVolatile k tag, 0x50, argBits c.word 8 2 == 1),
      (.channelDisableWithdraw k tag, 0x50, argBits c.word 8 2 == 2),
      (.fuseShadowSet k tag, 0x59, s.winField k c.word 1 1 != 1), (.fuseShadowClear k tag, 0x59, s.winField k c.word 1 1 == 1),
      (.logConfigGet k tag, 0x70, s.winField k c.word 0 4 % 4 == 0 || s.winField k c.word 0 4 % 4 == 3),
      (.logConfigSet k tag, 0x70, s.winField k c.word 0 4 % 4 == 1),
      (.logConfigFlush k tag, 0x70, s.winField k c.word 0 4 % 4 == 2)] →
    s.fwRuns = true → s.mgmt.fw.st = .loader → s.nextCmd k = some c → c.tag = tag →
    cmdOpcode c.word = op → ok = true → exec i s = .next (ended s k tag op 6 0))

/-- The wrapper. Each command sets the instruction register; a factory-only one acts as WS_BYPASS outside factory
mode. A BIST launch is kept while gh_rst_n_i is low, in the field with every block selected, and refused otherwise.
The result register captures what the last boot found. A debug path starts one access at a time, and drops an update
while one is in progress. Closing the factory needs its word, its locks and a usable Merrov digest, starts the blowing
of lock word 7, and does nothing where one of them is missing. Clauses that rest on the model's choices follow log
entries 38 and 45. The debug snapshots, while the channel's quad is powered: firmware and the debug class take one of
a table entry or of a tracker entry; of an engine that is an idle follower it is all zero; any other class is refused.
-/
def Obligations.Wrapper : Prop :=
  ((∀ (s : State), exec .wsBypass s = .next (s.updBoot fun b => { b with wir := 0 })) ∧
   (∀ (s : State), s.mgmt.fuse.factory = true →
     exec .wsExtest s = .next (s.updBoot fun b => { b with wir := 1 }) ∧
     exec .wsIntest s = .next (s.updBoot fun b => { b with wir := 2 }) ∧
     exec .ghCodecTest s = .next (s.updBoot fun b => { b with wir := 0x20, codec := 3 })) ∧
   (∀ (v : Word) (s : State), s.mgmt.fuse.factory = false →
     exec .wsExtest s = exec .wsBypass s ∧ exec .wsIntest s = exec .wsBypass s ∧ exec .ghCodecTest s = exec .wsBypass s ∧
       exec (.ghFactoryClose v) s = exec .wsBypass s) ∧
   (∀ (mask : BitVec 88) (s : State), s.boot.rstN = false → s.boot.ph ≠ .off →
     (s.mgmt.fuse.factory = true ∨ mask.extractLsb' 0 85 = BitVec.allOnes 85 →
       exec (.ghBistLaunch mask) s = .next (s.updBoot fun b =>
         { b with wir := 0x10, armed := some mask, launchRefused := false })) ∧
     (s.mgmt.fuse.factory = false → mask.extractLsb' 0 85 ≠ BitVec.allOnes 85 →
       exec (.ghBistLaunch mask) s = .next (s.updBoot fun b => { b with wir := 0x10, launchRefused := true }))) ∧
   (∀ (mask : BitVec 88) (s : State), s.boot.rstN = true ∨ s.boot.ph = .off →
     exec (.ghBistLaunch mask) s = .next (s.updBoot fun b => { b with wir := 0x10 })) ∧
   (∀ (s : State), ∃ t, exec .ghBistResult s = .next t ∧ t.boot = { s.boot with wir := 0x11, dr := t.boot.dr } ∧
     t.boot.dr.extractLsb' 0 64 = s.boot.bistCh ∧ t.boot.dr.extractLsb' 64 20 = s.boot.bistMod ∧
     t.boot.dr.getLsbD 84 = (s.boot.bistMgmt == 3) ∧ t.boot.dr.getLsbD 85 = s.boot.bistValid ∧
     t.boot.dr.getLsbD 86 = s.boot.launchRefused ∧ t.boot.dr.extractLsb' 88 4 = s.boot.groupsRun ∧ t.mgmt = s.mgmt ∧
     t.chan = s.chan ∧ t.hlm = s.hlm) ∧
   (∀ (j : Fin 4) (u : BitVec 64) (s : State), s.boot.dbgBusy.get j = false → s.mgmtOn = true →
     exec (.ghDbgReg j u) s = .next ((s.updBoot fun b => { b with wir := BitVec.ofNat 6 (0x18 + j.val) }).access
       { who := BitVec.ofNat 11 (0x414 + j.val), org := .debug j, off := u.extractLsb' 32 24,
         wr := if u.getLsbD 63 then some (u.extractLsb' 0 32) else none })) ∧
   (∀ (j : Fin 4) (u : BitVec 64) (s : State), s.boot.dbgBusy.get j = true ∨ s.mgmtOn = false →
     exec (.ghDbgReg j u) s = .next (s.updBoot fun b => { b with wir := BitVec.ofNat 6 (0x18 + j.val) })) ∧
   (∀ (j : Fin 4) (u : BitVec 64) (w : Word) (s : State), s.boot.dbgBusy.get j = false → s.mgmtOn = true →
     u.getLsbD 63 = false → plainOff (u.extractLsb' 32 24).toNat = true → s.regOff (u.extractLsb' 32 24).toNat = false →
     s.peek (u.extractLsb' 32 24).toNat = some w →
     exec (.ghDbgReg j u) s = .next (s.updBoot fun b => { b with
       wir := BitVec.ofNat 6 (0x18 + j.val), dbgRes := upd b.dbgRes j fun _ => (0 : BitVec 8) ++ u.extractLsb' 32 24 ++ w })) ∧
   (∀ (f : Machine.Fuses), f.mayClose = true ↔ (∀ r ∈ [0, 1, 2, 3, 5], f.locked.getLsbD r = true) ∧
     ∀ i < 12, f.unusable.contains (738 + i) = false ∧ (fuseDecode (f.raw (738 + i))).isSome = true ∧ f.raw (738 + i) ≠ 0) ∧
   (∀ (s : State), s.mgmt.fuse.factory = true → s.mgmtOn = true → s.mgmt.fuse.mayClose = true → s.mgmt.fuse.cmd = none →
     s.mgmt.fuse.ackHigh = true →
     exec (.ghFactoryClose 0x00C105ED) s = .next ((s.updBoot fun b => { b with wir := 0x2F }).updFuse fun f => { f with
       cmd := some {
         by_ := none, op := 0, region := 7, off := 0, count := 1, done := 0, base := 0, margin := false, vals := [], stage := 3,
         progs := lockOps 7 } })) ∧
   (∀ (v : Word) (s : State), s.mgmt.fuse.factory = true → (v ≠ 0x00C105ED ∨ s.mgmt.fuse.mayClose = false) →
     exec (.ghFactoryClose v) s = .next (s.updBoot fun b => { b with wir := 0x2F }))) ∧
  (∀ (who : Ident) (n : Ch) (v : Word) (s : State), s.mgmtOn = true → s.quadOn n = true →
     ((who = fwIdent ∨ identClass who = 2) →
       exec (.ttSnapshot who n v) s = .next (answered (s.updChan n fun c => { c with dbg := { c.dbg with
         ttIdx := v.extractLsb' 0 8, ttValid := true,
         tt := if s.map.isFollower n then 0 else c.entryView (Fin.ofNat 256 (v.extractLsb' 0 8).toNat) } }) (.ok 0)) ∧
       exec (.trackerSnapshot who n v) s = .next (answered (s.updChan n fun c => { c with dbg := { c.dbg with
         trkIdx := v.extractLsb' 0 14, trkValid := true,
         trkEnt := if s.map.isFollower n then 0
           else (c.trk (Fin.ofNat 128 (v.extractLsb' 7 7).toNat)).view (v.extractLsb' 0 7).toNat,
         trkS := if s.map.isFollower n then 0 else (c.trk (Fin.ofNat 128 (v.extractLsb' 7 7).toNat)).s } }) (.ok 0))) ∧
     (who ≠ fwIdent → identClass who ≠ 2 →
       exec (.ttSnapshot who n v) s = .next (answered s (.err errDENIED)) ∧
       exec (.trackerSnapshot who n v) s = .next (answered s (.err errDENIED))))
end

