-- ==== Sys2Proof/Laws/Flit.lean ====
section
/-! SUPPORT. The CRC of a flit: over two runs of bytes one after the other, and its range. -/

namespace Sys2Proof.Machine

/-- The CRC over `a + b` bytes goes on from the CRC over the first `a`. -/
theorem crcBytes_add (c v a b : Nat) : crcBytes c v (a + b) = crcBytes (crcBytes c v a) (v / 256 ^ a) b := by
  induction a generalizing c v with
  | zero => simp [crcBytes]
  | succ n ih =>
    rw [Nat.add_right_comm]
    simp only [crcBytes, ih, Nat.pow_succ', Nat.div_div_eq_div_mul]

theorem crcBit_lt {c : Nat} (h : c < 2 ^ 64) : crcBit c < 2 ^ 64 := by
  unfold crcBit
  split
  · exact Nat.xor_lt_two_pow (Nat.mod_lt _ (by decide)) (by decide)
  · next hb =>
    have : c < 2 ^ 63 := Nat.lt_of_not_le fun hc =>
      hb (Nat.testBit_of_two_pow_le_and_two_pow_add_one_gt hc h)
    omega

theorem crcByte_lt {c b : Nat} (h : c < 2 ^ 64) (hb : b < 256) : crcByte c b < 2 ^ 64 := by
  have : c ^^^ (b * 2 ^ 56) < 2 ^ 64 := Nat.xor_lt_two_pow h (by omega)
  exact crcBit_lt (crcBit_lt (crcBit_lt (crcBit_lt (crcBit_lt (crcBit_lt (crcBit_lt (crcBit_lt this)))))))

theorem crcBytes_lt {c : Nat} (h : c < 2 ^ 64) (v n : Nat) : crcBytes c v n < 2 ^ 64 := by
  induction n generalizing c v with
  | zero => exact h
  | succ n ih => exact ih (crcByte_lt h (Nat.mod_lt _ (by decide))) _

/-- The CRC of a flit is 64 bits. -/
theorem flitCrc_lt (body : Nat) : flitCrc body < 2 ^ 64 :=
  Nat.xor_lt_two_pow (crcBytes_lt (by decide) _ _) (by decide)

end Sys2Proof.Machine
end

