-- ==== Sys2Proof/Laws/Memory.lean ====
section
/-! SUPPORT. The byte memories: what a read gives after a write, and that every operation keeps the canonical form. -/

namespace Sys2Proof.Machine

/-- Every address of a list lies above `a`. -/
def memAbove (a : Nat) (l : List Host.Cell) : Prop := ∀ c ∈ l, a < c.1

theorem memWf_cons (c : Host.Cell) (l : List Host.Cell) :
    memWf (c :: l) = true ↔ c.2 ≠ 0 ∧ memAbove c.1 l ∧ memWf l = true := by
  induction l generalizing c with
  | nil => simp [memWf, memAbove]
  | cons d r ih =>
    simp only [memWf, Bool.and_eq_true, bne_iff_ne, ne_eq, decide_eq_true_eq]
    constructor
    · rintro ⟨⟨h1, h2⟩, h3⟩
      refine ⟨h1, ?_, h3⟩
      intro x hx
      rcases List.mem_cons.1 hx with rfl | hx
      · exact h2
      · exact Nat.lt_trans h2 (((ih d).1 h3).2.1 x hx)
    · rintro ⟨h1, h2, h3⟩
      exact ⟨⟨h1, h2 d (List.mem_cons_self ..)⟩, h3⟩

theorem memAbove_write {a b : Nat} {v : Byte} {l : List Host.Cell} (hl : memAbove a l) (hb : a < b) :
    memAbove a (memWrite l b v) := by
  induction l with
  | nil =>
    unfold memWrite; split
    · exact hl
    · intro c hc; rw [List.mem_singleton] at hc; subst hc; exact hb
  | cons c r ih =>
    have hc : a < c.1 := hl c (List.mem_cons_self ..)
    have hr : memAbove a r := fun x hx => hl x (List.mem_cons_of_mem _ hx)
    unfold memWrite
    split
    · intro x hx
      rcases List.mem_cons.1 hx with rfl | hx
      · exact hc
      · exact ih hr x hx
    · split
      · split
        · exact hr
        · intro x hx
          rcases List.mem_cons.1 hx with rfl | hx
          · exact hb
          · exact hr x hx
      · split
        · exact hl
        · intro x hx
          rcases List.mem_cons.1 hx with rfl | hx
          · exact hb
          · exact hl x hx

/-- A write keeps the canonical form. -/
theorem memWrite_wf {l : List Host.Cell} (h : memWf l = true) (a : Nat) (v : Byte) : memWf (memWrite l a v) = true := by
  induction l with
  | nil =>
    unfold memWrite; split
    · rfl
    · rename_i hv; simp [memWf]; exact hv
  | cons c r ih =>
    obtain ⟨h1, h2, h3⟩ := (memWf_cons c r).1 h
    unfold memWrite
    split
    · rename_i hlt
      exact (memWf_cons c _).2 ⟨h1, memAbove_write h2 hlt, ih h3⟩
    · rename_i hge
      split
      · rename_i heq
        split
        · exact h3
        · rename_i hv
          exact (memWf_cons _ _).2 ⟨hv, by rw [← heq]; exact h2, h3⟩
      · rename_i hne
        split
        · exact h
        · rename_i hv
          refine (memWf_cons _ _).2 ⟨hv, ?_, h⟩
          intro x hx
          rcases List.mem_cons.1 hx with rfl | hx
          · change a < x.1; omega
          · have := h2 x hx; change a < x.1; omega

theorem memWriteN_wf {l : List Host.Cell} (h : memWf l = true) (a v n : Nat) : memWf (memWriteN l a v n) = true := by
  induction n generalizing l a v with
  | zero => exact h
  | succ n ih => exact ih (memWrite_wf h a _) _ _

/-- Leaving out cells keeps the canonical form. -/
theorem filter_wf {l : List Host.Cell} (h : memWf l = true) (p : Host.Cell → Bool) : memWf (l.filter p) = true := by
  induction l with
  | nil => rfl
  | cons c r ih =>
    obtain ⟨h1, h2, h3⟩ := (memWf_cons c r).1 h
    rw [List.filter_cons]
    split
    · exact (memWf_cons _ _).2 ⟨h1, fun x hx => h2 x (List.mem_filter.1 hx).1, ih h3⟩
    · exact ih h3

theorem memRead_above {a : Nat} {l : List Host.Cell} (h : memAbove a l) : memRead l a = 0 := by
  induction l with
  | nil => rfl
  | cons c r ih =>
    have hc := h c (List.mem_cons_self ..)
    unfold memRead
    rw [if_neg (by omega)]
    exact ih fun x hx => h x (List.mem_cons_of_mem _ hx)

/-- A read of the address written gives the byte written. -/
theorem memRead_write_same {l : List Host.Cell} (h : memWf l = true) (a : Nat) (v : Byte) :
    memRead (memWrite l a v) a = v := by
  induction l with
  | nil => unfold memWrite; split <;> simp_all [memRead]
  | cons c r ih =>
    obtain ⟨_, h2, h3⟩ := (memWf_cons c r).1 h
    unfold memWrite
    split
    · rename_i hlt; unfold memRead; rw [if_neg (by omega)]; exact ih h3
    · split
      · rename_i heq
        split
        · rename_i hv; subst hv; exact memRead_above (by rw [← heq]; exact h2)
        · simp [memRead]
      · split
        · rename_i hv; subst hv
          apply memRead_above
          intro x hx
          rcases List.mem_cons.1 hx with rfl | hx
          · omega
          · have := h2 x hx; omega
        · simp [memRead]

/-- A read of another address gives what it gave before. -/
theorem memRead_write_ne (l : List Host.Cell) {a b : Nat} (v : Byte) (hab : b ≠ a) :
    memRead (memWrite l a v) b = memRead l b := by
  induction l with
  | nil =>
    unfold memWrite; split
    · rfl
    · unfold memRead; rw [if_neg (Ne.symm hab)]; rfl
  | cons c r ih =>
    unfold memWrite
    repeat' split
    · rw [memRead, memRead, ih]
    · rename_i h _; rw [memRead, if_neg (by omega)]
    · rename_i h _; rw [memRead, memRead, if_neg (Ne.symm hab), if_neg (by omega)]
    · rfl
    · rw [memRead, if_neg (Ne.symm hab)]

/-- A write of `n` bytes leaves every byte outside them. -/
theorem memRead_writeN_ne (l : List Host.Cell) (a v n b : Nat) (h : b < a ∨ a + n ≤ b) :
    memRead (memWriteN l a v n) b = memRead l b := by
  induction n generalizing l a v with
  | zero => rfl
  | succ n ih =>
    unfold memWriteN
    rw [ih _ _ _ (by omega), memRead_write_ne _ _ (by omega)]

/-- A read of the `n` bytes written gives the number written, modulo their width. -/
theorem memReadN_writeN {l : List Host.Cell} (h : memWf l = true) (a v n : Nat) :
    memReadN (memWriteN l a v n) a n = v % 256 ^ n := by
  induction n generalizing l a v with
  | zero => simp [memReadN, Nat.mod_one]
  | succ n ih =>
    unfold memWriteN memReadN
    rw [ih (memWrite_wf h a _), memRead_writeN_ne _ _ _ _ _ (by omega), memRead_write_same h, BitVec.toNat_ofNat,
      show (2 : Nat) ^ 8 = 256 from rfl, Nat.pow_succ', Nat.mod_mul]

theorem memReadN_writeN_ne (l : List Host.Cell) (a v n b m : Nat) (h : b + m ≤ a ∨ a + n ≤ b) :
    memReadN (memWriteN l a v n) b m = memReadN l b m := by
  induction m generalizing b with
  | zero => rfl
  | succ m ih => rw [memReadN, memReadN, memRead_writeN_ne _ _ _ _ _ (by omega), ih _ (by omega)]

/-! ## Lines -/

/-- Two different places have different keys. -/
theorem lineKey_inj {n n' : Ch} {l l' : Loc} (h : lineKey n l = lineKey n' l') : n = n' ∧ l = l' := by
  obtain ⟨p, s, g, b, r, c⟩ := l
  obtain ⟨p', s', g', b', r', c'⟩ := l'
  simp only [lineKey] at h
  have := p.isLt; have := p'.isLt; have := s.isLt; have := s'.isLt; have := g.isLt; have := g'.isLt
  have := b.isLt; have := b'.isLt; have := r.isLt; have := r'.isLt; have := c.isLt; have := c'.isLt
  have hc : c.toNat = c'.toNat := by omega
  have hr : r.toNat = r'.toNat := by omega
  have hg : g.toNat = g'.toNat := by omega
  have hb : b.toNat = b'.toNat := by omega
  have hs : s.toNat = s'.toNat := by omega
  have hp : p.toNat = p'.toNat := by omega
  have hn : n.val = n'.val := by omega
  simp only [Loc.mk.injEq]
  exact ⟨Fin.ext hn, BitVec.eq_of_toNat_eq hp, BitVec.eq_of_toNat_eq hs, BitVec.eq_of_toNat_eq hg,
    BitVec.eq_of_toNat_eq hb, BitVec.eq_of_toNat_eq hr, BitVec.eq_of_toNat_eq hc⟩

theorem writeLine_dram (s : State) (n : Ch) (l : Loc) (d : Line) :
    (s.writeLine n l d).dram = memWriteN s.dram (lineKey n l * 64) d.toNat 64 := by dsimp only [State.writeLine]
theorem writePoison_dram (s : State) (n : Ch) (l : Loc) (d : Line) :
    (s.writePoison n l d).dram = memWriteN s.dram (lineKey n l * 64) d.toNat 64 := by
  dsimp only [State.writePoison, State.writeLine]
theorem writeLine_wf {s : State} (h : memWf s.dram = true) (n : Ch) (l : Loc) (d : Line) :
    memWf (s.writeLine n l d).dram = true := by rw [writeLine_dram]; exact memWriteN_wf h _ _ _
theorem writePoison_wf {s : State} (h : memWf s.dram = true) (n : Ch) (l : Loc) (d : Line) :
    memWf (s.writePoison n l d).dram = true := by rw [writePoison_dram]; exact memWriteN_wf h _ _ _
theorem writeStored_wf {s : State} (h : memWf s.dram = true) (n : Ch) (twin : Bool) (l : Loc) (d : PairLine) :
    memWf (s.writeStored n twin l d).dram = true := by
  unfold State.writeStored; split
  · exact writeLine_wf (writeLine_wf h ..) ..
  · exact writeLine_wf h ..
theorem writeStoredPoison_wf {s : State} (h : memWf s.dram = true) (n : Ch) (twin : Bool) (l : Loc) (d : PairLine) :
    memWf (s.writeStoredPoison n twin l d).dram = true := by
  unfold State.writeStoredPoison; split
  · exact writePoison_wf (writePoison_wf h ..) ..
  · exact writePoison_wf h ..

end Sys2Proof.Machine
end

