-- ==== Sys2Proof/Laws/State.lean ====
section
/-! SUPPORT. What each update of the state does to each field: one lemma per field per update, true by rfl. -/

namespace Sys2Proof.Machine

variable (s : State)

@[simp] theorem updHlm_clk (m : Mod) (f : Hlm → Hlm) : (s.updHlm m f).clk = s.clk := rfl
@[simp] theorem updHlm_hlm (m : Mod) (f : Hlm → Hlm) : (s.updHlm m f).hlm = upd s.hlm m f := rfl
@[simp] theorem updHlm_port (m : Mod) (f : Hlm → Hlm) : (s.updHlm m f).port = s.port := rfl
@[simp] theorem updHlm_chan (m : Mod) (f : Hlm → Hlm) : (s.updHlm m f).chan = s.chan := rfl
@[simp] theorem updHlm_map (m : Mod) (f : Hlm → Hlm) : (s.updHlm m f).map = s.map := rfl
@[simp] theorem updHlm_dram (m : Mod) (f : Hlm → Hlm) : (s.updHlm m f).dram = s.dram := rfl
@[simp] theorem updHlm_poisonLines (m : Mod) (f : Hlm → Hlm) : (s.updHlm m f).poisonLines = s.poisonLines := rfl
@[simp] theorem updHlm_mgmt (m : Mod) (f : Hlm → Hlm) : (s.updHlm m f).mgmt = s.mgmt := rfl
@[simp] theorem updHlm_pwr (m : Mod) (f : Hlm → Hlm) : (s.updHlm m f).pwr = s.pwr := rfl
@[simp] theorem updHlm_boot (m : Mod) (f : Hlm → Hlm) : (s.updHlm m f).boot = s.boot := rfl
@[simp] theorem updHlm_pending (m : Mod) (f : Hlm → Hlm) : (s.updHlm m f).pending = s.pending := rfl

@[simp] theorem updPort_clk (k : PortK) (f : Port → Port) : (s.updPort k f).clk = s.clk := rfl
@[simp] theorem updPort_hlm (k : PortK) (f : Port → Port) : (s.updPort k f).hlm = s.hlm := rfl
@[simp] theorem updPort_port (k : PortK) (f : Port → Port) : (s.updPort k f).port = upd s.port k f := rfl
@[simp] theorem updPort_chan (k : PortK) (f : Port → Port) : (s.updPort k f).chan = s.chan := rfl
@[simp] theorem updPort_map (k : PortK) (f : Port → Port) : (s.updPort k f).map = s.map := rfl
@[simp] theorem updPort_dram (k : PortK) (f : Port → Port) : (s.updPort k f).dram = s.dram := rfl
@[simp] theorem updPort_poisonLines (k : PortK) (f : Port → Port) : (s.updPort k f).poisonLines = s.poisonLines := rfl
@[simp] theorem updPort_mgmt (k : PortK) (f : Port → Port) : (s.updPort k f).mgmt = s.mgmt := rfl
@[simp] theorem updPort_pwr (k : PortK) (f : Port → Port) : (s.updPort k f).pwr = s.pwr := rfl
@[simp] theorem updPort_boot (k : PortK) (f : Port → Port) : (s.updPort k f).boot = s.boot := rfl
@[simp] theorem updPort_pending (k : PortK) (f : Port → Port) : (s.updPort k f).pending = s.pending := rfl

@[simp] theorem updChan_clk (n : Ch) (f : Chan → Chan) : (s.updChan n f).clk = s.clk := rfl
@[simp] theorem updChan_hlm (n : Ch) (f : Chan → Chan) : (s.updChan n f).hlm = s.hlm := rfl
@[simp] theorem updChan_port (n : Ch) (f : Chan → Chan) : (s.updChan n f).port = s.port := rfl
@[simp] theorem updChan_chan (n : Ch) (f : Chan → Chan) : (s.updChan n f).chan = upd s.chan n f := rfl
@[simp] theorem updChan_map (n : Ch) (f : Chan → Chan) : (s.updChan n f).map = s.map := rfl
@[simp] theorem updChan_dram (n : Ch) (f : Chan → Chan) : (s.updChan n f).dram = s.dram := rfl
@[simp] theorem updChan_poisonLines (n : Ch) (f : Chan → Chan) : (s.updChan n f).poisonLines = s.poisonLines := rfl
@[simp] theorem updChan_mgmt (n : Ch) (f : Chan → Chan) : (s.updChan n f).mgmt = s.mgmt := rfl
@[simp] theorem updChan_pwr (n : Ch) (f : Chan → Chan) : (s.updChan n f).pwr = s.pwr := rfl
@[simp] theorem updChan_boot (n : Ch) (f : Chan → Chan) : (s.updChan n f).boot = s.boot := rfl
@[simp] theorem updChan_pending (n : Ch) (f : Chan → Chan) : (s.updChan n f).pending = s.pending := rfl

@[simp] theorem updMgmt_clk (f : Mgmt → Mgmt) : (s.updMgmt f).clk = s.clk := rfl
@[simp] theorem updMgmt_hlm (f : Mgmt → Mgmt) : (s.updMgmt f).hlm = s.hlm := rfl
@[simp] theorem updMgmt_port (f : Mgmt → Mgmt) : (s.updMgmt f).port = s.port := rfl
@[simp] theorem updMgmt_chan (f : Mgmt → Mgmt) : (s.updMgmt f).chan = s.chan := rfl
@[simp] theorem updMgmt_map (f : Mgmt → Mgmt) : (s.updMgmt f).map = s.map := rfl
@[simp] theorem updMgmt_dram (f : Mgmt → Mgmt) : (s.updMgmt f).dram = s.dram := rfl
@[simp] theorem updMgmt_poisonLines (f : Mgmt → Mgmt) : (s.updMgmt f).poisonLines = s.poisonLines := rfl
@[simp] theorem updMgmt_mgmt (f : Mgmt → Mgmt) : (s.updMgmt f).mgmt = f s.mgmt := rfl
@[simp] theorem updMgmt_pwr (f : Mgmt → Mgmt) : (s.updMgmt f).pwr = s.pwr := rfl
@[simp] theorem updMgmt_boot (f : Mgmt → Mgmt) : (s.updMgmt f).boot = s.boot := rfl
@[simp] theorem updMgmt_pending (f : Mgmt → Mgmt) : (s.updMgmt f).pending = s.pending := rfl

@[simp] theorem updPwr_clk (f : Power → Power) : (s.updPwr f).clk = s.clk := rfl
@[simp] theorem updPwr_hlm (f : Power → Power) : (s.updPwr f).hlm = s.hlm := rfl
@[simp] theorem updPwr_port (f : Power → Power) : (s.updPwr f).port = s.port := rfl
@[simp] theorem updPwr_chan (f : Power → Power) : (s.updPwr f).chan = s.chan := rfl
@[simp] theorem updPwr_map (f : Power → Power) : (s.updPwr f).map = s.map := rfl
@[simp] theorem updPwr_dram (f : Power → Power) : (s.updPwr f).dram = s.dram := rfl
@[simp] theorem updPwr_poisonLines (f : Power → Power) : (s.updPwr f).poisonLines = s.poisonLines := rfl
@[simp] theorem updPwr_mgmt (f : Power → Power) : (s.updPwr f).mgmt = s.mgmt := rfl
@[simp] theorem updPwr_pwr (f : Power → Power) : (s.updPwr f).pwr = f s.pwr := rfl
@[simp] theorem updPwr_boot (f : Power → Power) : (s.updPwr f).boot = s.boot := rfl
@[simp] theorem updPwr_pending (f : Power → Power) : (s.updPwr f).pending = s.pending := rfl

@[simp] theorem updBoot_clk (f : Boot → Boot) : (s.updBoot f).clk = s.clk := rfl
@[simp] theorem updBoot_hlm (f : Boot → Boot) : (s.updBoot f).hlm = s.hlm := rfl
@[simp] theorem updBoot_port (f : Boot → Boot) : (s.updBoot f).port = s.port := rfl
@[simp] theorem updBoot_chan (f : Boot → Boot) : (s.updBoot f).chan = s.chan := rfl
@[simp] theorem updBoot_map (f : Boot → Boot) : (s.updBoot f).map = s.map := rfl
@[simp] theorem updBoot_dram (f : Boot → Boot) : (s.updBoot f).dram = s.dram := rfl
@[simp] theorem updBoot_poisonLines (f : Boot → Boot) : (s.updBoot f).poisonLines = s.poisonLines := rfl
@[simp] theorem updBoot_mgmt (f : Boot → Boot) : (s.updBoot f).mgmt = s.mgmt := rfl
@[simp] theorem updBoot_pwr (f : Boot → Boot) : (s.updBoot f).pwr = s.pwr := rfl
@[simp] theorem updBoot_boot (f : Boot → Boot) : (s.updBoot f).boot = f s.boot := rfl
@[simp] theorem updBoot_pending (f : Boot → Boot) : (s.updBoot f).pending = s.pending := rfl

@[simp] theorem updMap_clk (f : Map → Map) : (s.updMap f).clk = s.clk := rfl
@[simp] theorem updMap_hlm (f : Map → Map) : (s.updMap f).hlm = s.hlm := rfl
@[simp] theorem updMap_port (f : Map → Map) : (s.updMap f).port = s.port := rfl
@[simp] theorem updMap_chan (f : Map → Map) : (s.updMap f).chan = s.chan := rfl
@[simp] theorem updMap_map (f : Map → Map) : (s.updMap f).map = f s.map := rfl
@[simp] theorem updMap_dram (f : Map → Map) : (s.updMap f).dram = s.dram := rfl
@[simp] theorem updMap_poisonLines (f : Map → Map) : (s.updMap f).poisonLines = s.poisonLines := rfl
@[simp] theorem updMap_mgmt (f : Map → Map) : (s.updMap f).mgmt = s.mgmt := rfl
@[simp] theorem updMap_pwr (f : Map → Map) : (s.updMap f).pwr = s.pwr := rfl
@[simp] theorem updMap_boot (f : Map → Map) : (s.updMap f).boot = s.boot := rfl
@[simp] theorem updMap_pending (f : Map → Map) : (s.updMap f).pending = s.pending := rfl

@[simp] theorem updClk_clk (f : Clock → Clock) : (s.updClk f).clk = f s.clk := rfl
@[simp] theorem updClk_hlm (f : Clock → Clock) : (s.updClk f).hlm = s.hlm := rfl
@[simp] theorem updClk_port (f : Clock → Clock) : (s.updClk f).port = s.port := rfl
@[simp] theorem updClk_chan (f : Clock → Clock) : (s.updClk f).chan = s.chan := rfl
@[simp] theorem updClk_map (f : Clock → Clock) : (s.updClk f).map = s.map := rfl
@[simp] theorem updClk_dram (f : Clock → Clock) : (s.updClk f).dram = s.dram := rfl
@[simp] theorem updClk_poisonLines (f : Clock → Clock) : (s.updClk f).poisonLines = s.poisonLines := rfl
@[simp] theorem updClk_mgmt (f : Clock → Clock) : (s.updClk f).mgmt = s.mgmt := rfl
@[simp] theorem updClk_pwr (f : Clock → Clock) : (s.updClk f).pwr = s.pwr := rfl
@[simp] theorem updClk_boot (f : Clock → Clock) : (s.updClk f).boot = s.boot := rfl
@[simp] theorem updClk_pending (f : Clock → Clock) : (s.updClk f).pending = s.pending := rfl

@[simp] theorem mapChan_clk (f : Ch → Chan → Chan) : (s.mapChan f).clk = s.clk := by dsimp only [State.mapChan]
@[simp] theorem mapChan_hlm (f : Ch → Chan → Chan) : (s.mapChan f).hlm = s.hlm := by dsimp only [State.mapChan]
@[simp] theorem mapChan_port (f : Ch → Chan → Chan) : (s.mapChan f).port = s.port := by dsimp only [State.mapChan]
@[simp] theorem mapChan_chan (f : Ch → Chan → Chan) : (s.mapChan f).chan = Vector.ofFn fun i => f i (s.chan.get i) := rfl
@[simp] theorem mapChan_map (f : Ch → Chan → Chan) : (s.mapChan f).map = s.map := by dsimp only [State.mapChan]
@[simp] theorem mapChan_dram (f : Ch → Chan → Chan) : (s.mapChan f).dram = s.dram := by dsimp only [State.mapChan]
@[simp] theorem mapChan_poisonLines (f : Ch → Chan → Chan) : (s.mapChan f).poisonLines = s.poisonLines := by dsimp only [State.mapChan]
@[simp] theorem mapChan_mgmt (f : Ch → Chan → Chan) : (s.mapChan f).mgmt = s.mgmt := by dsimp only [State.mapChan]
@[simp] theorem mapChan_pwr (f : Ch → Chan → Chan) : (s.mapChan f).pwr = s.pwr := by dsimp only [State.mapChan]
@[simp] theorem mapChan_boot (f : Ch → Chan → Chan) : (s.mapChan f).boot = s.boot := by dsimp only [State.mapChan]
@[simp] theorem mapChan_pending (f : Ch → Chan → Chan) : (s.mapChan f).pending = s.pending := by dsimp only [State.mapChan]

@[simp] theorem mapHlm_clk (f : Mod → Hlm → Hlm) : (s.mapHlm f).clk = s.clk := by dsimp only [State.mapHlm]
@[simp] theorem mapHlm_hlm (f : Mod → Hlm → Hlm) : (s.mapHlm f).hlm = Vector.ofFn fun i => f i (s.hlm.get i) := rfl
@[simp] theorem mapHlm_port (f : Mod → Hlm → Hlm) : (s.mapHlm f).port = s.port := by dsimp only [State.mapHlm]
@[simp] theorem mapHlm_chan (f : Mod → Hlm → Hlm) : (s.mapHlm f).chan = s.chan := by dsimp only [State.mapHlm]
@[simp] theorem mapHlm_map (f : Mod → Hlm → Hlm) : (s.mapHlm f).map = s.map := by dsimp only [State.mapHlm]
@[simp] theorem mapHlm_dram (f : Mod → Hlm → Hlm) : (s.mapHlm f).dram = s.dram := by dsimp only [State.mapHlm]
@[simp] theorem mapHlm_poisonLines (f : Mod → Hlm → Hlm) : (s.mapHlm f).poisonLines = s.poisonLines := by dsimp only [State.mapHlm]
@[simp] theorem mapHlm_mgmt (f : Mod → Hlm → Hlm) : (s.mapHlm f).mgmt = s.mgmt := by dsimp only [State.mapHlm]
@[simp] theorem mapHlm_pwr (f : Mod → Hlm → Hlm) : (s.mapHlm f).pwr = s.pwr := by dsimp only [State.mapHlm]
@[simp] theorem mapHlm_boot (f : Mod → Hlm → Hlm) : (s.mapHlm f).boot = s.boot := by dsimp only [State.mapHlm]
@[simp] theorem mapHlm_pending (f : Mod → Hlm → Hlm) : (s.mapHlm f).pending = s.pending := by dsimp only [State.mapHlm]

@[simp] theorem mapPort_clk (f : PortK → Port → Port) : (s.mapPort f).clk = s.clk := by dsimp only [State.mapPort]
@[simp] theorem mapPort_hlm (f : PortK → Port → Port) : (s.mapPort f).hlm = s.hlm := by dsimp only [State.mapPort]
@[simp] theorem mapPort_port (f : PortK → Port → Port) : (s.mapPort f).port = Vector.ofFn fun i => f i (s.port.get i) := rfl
@[simp] theorem mapPort_chan (f : PortK → Port → Port) : (s.mapPort f).chan = s.chan := by dsimp only [State.mapPort]
@[simp] theorem mapPort_map (f : PortK → Port → Port) : (s.mapPort f).map = s.map := by dsimp only [State.mapPort]
@[simp] theorem mapPort_dram (f : PortK → Port → Port) : (s.mapPort f).dram = s.dram := by dsimp only [State.mapPort]
@[simp] theorem mapPort_poisonLines (f : PortK → Port → Port) : (s.mapPort f).poisonLines = s.poisonLines := by dsimp only [State.mapPort]
@[simp] theorem mapPort_mgmt (f : PortK → Port → Port) : (s.mapPort f).mgmt = s.mgmt := by dsimp only [State.mapPort]
@[simp] theorem mapPort_pwr (f : PortK → Port → Port) : (s.mapPort f).pwr = s.pwr := by dsimp only [State.mapPort]
@[simp] theorem mapPort_boot (f : PortK → Port → Port) : (s.mapPort f).boot = s.boot := by dsimp only [State.mapPort]
@[simp] theorem mapPort_pending (f : PortK → Port → Port) : (s.mapPort f).pending = s.pending := by dsimp only [State.mapPort]

@[simp] theorem advance_hlm (t : Nat) : (s.advance t).hlm = s.hlm := rfl
@[simp] theorem advance_port (t : Nat) : (s.advance t).port = s.port := rfl
@[simp] theorem advance_chan (t : Nat) : (s.advance t).chan = s.chan := rfl
@[simp] theorem advance_map (t : Nat) : (s.advance t).map = s.map := rfl
@[simp] theorem advance_dram (t : Nat) : (s.advance t).dram = s.dram := rfl
@[simp] theorem advance_poisonLines (t : Nat) : (s.advance t).poisonLines = s.poisonLines := rfl
@[simp] theorem advance_mgmt (t : Nat) : (s.advance t).mgmt = s.mgmt := rfl
@[simp] theorem advance_pwr (t : Nat) : (s.advance t).pwr = s.pwr := rfl
@[simp] theorem advance_boot (t : Nat) : (s.advance t).boot = s.boot := rfl
@[simp] theorem advance_pending (t : Nat) : (s.advance t).pending = s.pending := rfl

@[simp] theorem updMb_clk (k : Mb) (f : Mailbox → Mailbox) : (s.updMb k f).clk = s.clk := rfl
@[simp] theorem updMb_hlm (k : Mb) (f : Mailbox → Mailbox) : (s.updMb k f).hlm = s.hlm := rfl
@[simp] theorem updMb_port (k : Mb) (f : Mailbox → Mailbox) : (s.updMb k f).port = s.port := rfl
@[simp] theorem updMb_chan (k : Mb) (f : Mailbox → Mailbox) : (s.updMb k f).chan = s.chan := rfl
@[simp] theorem updMb_map (k : Mb) (f : Mailbox → Mailbox) : (s.updMb k f).map = s.map := rfl
@[simp] theorem updMb_dram (k : Mb) (f : Mailbox → Mailbox) : (s.updMb k f).dram = s.dram := rfl
@[simp] theorem updMb_poisonLines (k : Mb) (f : Mailbox → Mailbox) : (s.updMb k f).poisonLines = s.poisonLines := rfl
@[simp] theorem updMb_pwr (k : Mb) (f : Mailbox → Mailbox) : (s.updMb k f).pwr = s.pwr := rfl
@[simp] theorem updMb_boot (k : Mb) (f : Mailbox → Mailbox) : (s.updMb k f).boot = s.boot := rfl
@[simp] theorem updMb_pending (k : Mb) (f : Mailbox → Mailbox) : (s.updMb k f).pending = s.pending := rfl
@[simp] theorem updMb_mgmt_fw (k : Mb) (f : Mailbox → Mailbox) : (s.updMb k f).mgmt.fw = s.mgmt.fw := rfl
@[simp] theorem updMb_mgmt_mb (k : Mb) (f : Mailbox → Mailbox) : (s.updMb k f).mgmt.mb = upd s.mgmt.mb k f := rfl
@[simp] theorem updMb_mgmt_sem (k : Mb) (f : Mailbox → Mailbox) : (s.updMb k f).mgmt.sem = s.mgmt.sem := rfl
@[simp] theorem updMb_mgmt_ev (k : Mb) (f : Mailbox → Mailbox) : (s.updMb k f).mgmt.ev = s.mgmt.ev := rfl
@[simp] theorem updMb_mgmt_occq (k : Mb) (f : Mailbox → Mailbox) : (s.updMb k f).mgmt.occq = s.mgmt.occq := rfl
@[simp] theorem updMb_mgmt_evLost (k : Mb) (f : Mailbox → Mailbox) : (s.updMb k f).mgmt.evLost = s.mgmt.evLost := rfl
@[simp] theorem updMb_mgmt_evLostLast (k : Mb) (f : Mailbox → Mailbox) : (s.updMb k f).mgmt.evLostLast = s.mgmt.evLostLast := rfl
@[simp] theorem updMb_mgmt_log (k : Mb) (f : Mailbox → Mailbox) : (s.updMb k f).mgmt.log = s.mgmt.log := rfl
@[simp] theorem updMb_mgmt_i3c (k : Mb) (f : Mailbox → Mailbox) : (s.updMb k f).mgmt.i3c = s.mgmt.i3c := rfl
@[simp] theorem updMb_mgmt_i3cStatic (k : Mb) (f : Mailbox → Mailbox) : (s.updMb k f).mgmt.i3cStatic = s.mgmt.i3cStatic := rfl
@[simp] theorem updMb_mgmt_cycleWr (k : Mb) (f : Mailbox → Mailbox) : (s.updMb k f).mgmt.cycleWr = s.mgmt.cycleWr := rfl
@[simp] theorem updMb_mgmt_fuse (k : Mb) (f : Mailbox → Mailbox) : (s.updMb k f).mgmt.fuse = s.mgmt.fuse := rfl
@[simp] theorem updMb_mgmt_scrub (k : Mb) (f : Mailbox → Mailbox) : (s.updMb k f).mgmt.scrub = s.mgmt.scrub := rfl
@[simp] theorem updMb_mgmt_therm (k : Mb) (f : Mailbox → Mailbox) : (s.updMb k f).mgmt.therm = s.mgmt.therm := rfl
@[simp] theorem updMb_mgmt_postAon (k : Mb) (f : Mailbox → Mailbox) : (s.updMb k f).mgmt.postAon = s.mgmt.postAon := rfl
@[simp] theorem updMb_mgmt_postTsv (k : Mb) (f : Mailbox → Mailbox) : (s.updMb k f).mgmt.postTsv = s.mgmt.postTsv := rfl
@[simp] theorem updMb_mgmt_lastAcc (k : Mb) (f : Mailbox → Mailbox) : (s.updMb k f).mgmt.lastAcc = s.mgmt.lastAcc := rfl

@[simp] theorem updEv_clk (e : Ev) (f : EvSrc → EvSrc) : (s.updEv e f).clk = s.clk := rfl
@[simp] theorem updEv_hlm (e : Ev) (f : EvSrc → EvSrc) : (s.updEv e f).hlm = s.hlm := rfl
@[simp] theorem updEv_port (e : Ev) (f : EvSrc → EvSrc) : (s.updEv e f).port = s.port := rfl
@[simp] theorem updEv_chan (e : Ev) (f : EvSrc → EvSrc) : (s.updEv e f).chan = s.chan := rfl
@[simp] theorem updEv_map (e : Ev) (f : EvSrc → EvSrc) : (s.updEv e f).map = s.map := rfl
@[simp] theorem updEv_dram (e : Ev) (f : EvSrc → EvSrc) : (s.updEv e f).dram = s.dram := rfl
@[simp] theorem updEv_poisonLines (e : Ev) (f : EvSrc → EvSrc) : (s.updEv e f).poisonLines = s.poisonLines := rfl
@[simp] theorem updEv_pwr (e : Ev) (f : EvSrc → EvSrc) : (s.updEv e f).pwr = s.pwr := rfl
@[simp] theorem updEv_boot (e : Ev) (f : EvSrc → EvSrc) : (s.updEv e f).boot = s.boot := rfl
@[simp] theorem updEv_pending (e : Ev) (f : EvSrc → EvSrc) : (s.updEv e f).pending = s.pending := rfl
@[simp] theorem updEv_mgmt_fw (e : Ev) (f : EvSrc → EvSrc) : (s.updEv e f).mgmt.fw = s.mgmt.fw := rfl
@[simp] theorem updEv_mgmt_mb (e : Ev) (f : EvSrc → EvSrc) : (s.updEv e f).mgmt.mb = s.mgmt.mb := rfl
@[simp] theorem updEv_mgmt_sem (e : Ev) (f : EvSrc → EvSrc) : (s.updEv e f).mgmt.sem = s.mgmt.sem := rfl
@[simp] theorem updEv_mgmt_ev (e : Ev) (f : EvSrc → EvSrc) : (s.updEv e f).mgmt.ev = upd s.mgmt.ev e f := rfl
@[simp] theorem updEv_mgmt_occq (e : Ev) (f : EvSrc → EvSrc) : (s.updEv e f).mgmt.occq = s.mgmt.occq := rfl
@[simp] theorem updEv_mgmt_evLost (e : Ev) (f : EvSrc → EvSrc) : (s.updEv e f).mgmt.evLost = s.mgmt.evLost := rfl
@[simp] theorem updEv_mgmt_evLostLast (e : Ev) (f : EvSrc → EvSrc) : (s.updEv e f).mgmt.evLostLast = s.mgmt.evLostLast := rfl
@[simp] theorem updEv_mgmt_log (e : Ev) (f : EvSrc → EvSrc) : (s.updEv e f).mgmt.log = s.mgmt.log := rfl
@[simp] theorem updEv_mgmt_i3c (e : Ev) (f : EvSrc → EvSrc) : (s.updEv e f).mgmt.i3c = s.mgmt.i3c := rfl
@[simp] theorem updEv_mgmt_i3cStatic (e : Ev) (f : EvSrc → EvSrc) : (s.updEv e f).mgmt.i3cStatic = s.mgmt.i3cStatic := rfl
@[simp] theorem updEv_mgmt_cycleWr (e : Ev) (f : EvSrc → EvSrc) : (s.updEv e f).mgmt.cycleWr = s.mgmt.cycleWr := rfl
@[simp] theorem updEv_mgmt_fuse (e : Ev) (f : EvSrc → EvSrc) : (s.updEv e f).mgmt.fuse = s.mgmt.fuse := rfl
@[simp] theorem updEv_mgmt_scrub (e : Ev) (f : EvSrc → EvSrc) : (s.updEv e f).mgmt.scrub = s.mgmt.scrub := rfl
@[simp] theorem updEv_mgmt_therm (e : Ev) (f : EvSrc → EvSrc) : (s.updEv e f).mgmt.therm = s.mgmt.therm := rfl
@[simp] theorem updEv_mgmt_postAon (e : Ev) (f : EvSrc → EvSrc) : (s.updEv e f).mgmt.postAon = s.mgmt.postAon := rfl
@[simp] theorem updEv_mgmt_postTsv (e : Ev) (f : EvSrc → EvSrc) : (s.updEv e f).mgmt.postTsv = s.mgmt.postTsv := rfl
@[simp] theorem updEv_mgmt_lastAcc (e : Ev) (f : EvSrc → EvSrc) : (s.updEv e f).mgmt.lastAcc = s.mgmt.lastAcc := rfl

@[simp] theorem updLog_clk (f : SilkLog → SilkLog) : (s.updLog f).clk = s.clk := rfl
@[simp] theorem updLog_hlm (f : SilkLog → SilkLog) : (s.updLog f).hlm = s.hlm := rfl
@[simp] theorem updLog_port (f : SilkLog → SilkLog) : (s.updLog f).port = s.port := rfl
@[simp] theorem updLog_chan (f : SilkLog → SilkLog) : (s.updLog f).chan = s.chan := rfl
@[simp] theorem updLog_map (f : SilkLog → SilkLog) : (s.updLog f).map = s.map := rfl
@[simp] theorem updLog_dram (f : SilkLog → SilkLog) : (s.updLog f).dram = s.dram := rfl
@[simp] theorem updLog_poisonLines (f : SilkLog → SilkLog) : (s.updLog f).poisonLines = s.poisonLines := rfl
@[simp] theorem updLog_pwr (f : SilkLog → SilkLog) : (s.updLog f).pwr = s.pwr := rfl
@[simp] theorem updLog_boot (f : SilkLog → SilkLog) : (s.updLog f).boot = s.boot := rfl
@[simp] theorem updLog_pending (f : SilkLog → SilkLog) : (s.updLog f).pending = s.pending := rfl
@[simp] theorem updLog_mgmt_fw (f : SilkLog → SilkLog) : (s.updLog f).mgmt.fw = s.mgmt.fw := rfl
@[simp] theorem updLog_mgmt_mb (f : SilkLog → SilkLog) : (s.updLog f).mgmt.mb = s.mgmt.mb := rfl
@[simp] theorem updLog_mgmt_sem (f : SilkLog → SilkLog) : (s.updLog f).mgmt.sem = s.mgmt.sem := rfl
@[simp] theorem updLog_mgmt_ev (f : SilkLog → SilkLog) : (s.updLog f).mgmt.ev = s.mgmt.ev := rfl
@[simp] theorem updLog_mgmt_occq (f : SilkLog → SilkLog) : (s.updLog f).mgmt.occq = s.mgmt.occq := rfl
@[simp] theorem updLog_mgmt_evLost (f : SilkLog → SilkLog) : (s.updLog f).mgmt.evLost = s.mgmt.evLost := rfl
@[simp] theorem updLog_mgmt_evLostLast (f : SilkLog → SilkLog) : (s.updLog f).mgmt.evLostLast = s.mgmt.evLostLast := rfl
@[simp] theorem updLog_mgmt_log (f : SilkLog → SilkLog) : (s.updLog f).mgmt.log = f s.mgmt.log := rfl
@[simp] theorem updLog_mgmt_i3c (f : SilkLog → SilkLog) : (s.updLog f).mgmt.i3c = s.mgmt.i3c := rfl
@[simp] theorem updLog_mgmt_i3cStatic (f : SilkLog → SilkLog) : (s.updLog f).mgmt.i3cStatic = s.mgmt.i3cStatic := rfl
@[simp] theorem updLog_mgmt_cycleWr (f : SilkLog → SilkLog) : (s.updLog f).mgmt.cycleWr = s.mgmt.cycleWr := rfl
@[simp] theorem updLog_mgmt_fuse (f : SilkLog → SilkLog) : (s.updLog f).mgmt.fuse = s.mgmt.fuse := rfl
@[simp] theorem updLog_mgmt_scrub (f : SilkLog → SilkLog) : (s.updLog f).mgmt.scrub = s.mgmt.scrub := rfl
@[simp] theorem updLog_mgmt_therm (f : SilkLog → SilkLog) : (s.updLog f).mgmt.therm = s.mgmt.therm := rfl
@[simp] theorem updLog_mgmt_postAon (f : SilkLog → SilkLog) : (s.updLog f).mgmt.postAon = s.mgmt.postAon := rfl
@[simp] theorem updLog_mgmt_postTsv (f : SilkLog → SilkLog) : (s.updLog f).mgmt.postTsv = s.mgmt.postTsv := rfl
@[simp] theorem updLog_mgmt_lastAcc (f : SilkLog → SilkLog) : (s.updLog f).mgmt.lastAcc = s.mgmt.lastAcc := rfl

@[simp] theorem updFuse_clk (f : Fuses → Fuses) : (s.updFuse f).clk = s.clk := rfl
@[simp] theorem updFuse_hlm (f : Fuses → Fuses) : (s.updFuse f).hlm = s.hlm := rfl
@[simp] theorem updFuse_port (f : Fuses → Fuses) : (s.updFuse f).port = s.port := rfl
@[simp] theorem updFuse_chan (f : Fuses → Fuses) : (s.updFuse f).chan = s.chan := rfl
@[simp] theorem updFuse_map (f : Fuses → Fuses) : (s.updFuse f).map = s.map := rfl
@[simp] theorem updFuse_dram (f : Fuses → Fuses) : (s.updFuse f).dram = s.dram := rfl
@[simp] theorem updFuse_poisonLines (f : Fuses → Fuses) : (s.updFuse f).poisonLines = s.poisonLines := rfl
@[simp] theorem updFuse_pwr (f : Fuses → Fuses) : (s.updFuse f).pwr = s.pwr := rfl
@[simp] theorem updFuse_boot (f : Fuses → Fuses) : (s.updFuse f).boot = s.boot := rfl
@[simp] theorem updFuse_pending (f : Fuses → Fuses) : (s.updFuse f).pending = s.pending := rfl
@[simp] theorem updFuse_mgmt_fw (f : Fuses → Fuses) : (s.updFuse f).mgmt.fw = s.mgmt.fw := rfl
@[simp] theorem updFuse_mgmt_mb (f : Fuses → Fuses) : (s.updFuse f).mgmt.mb = s.mgmt.mb := rfl
@[simp] theorem updFuse_mgmt_sem (f : Fuses → Fuses) : (s.updFuse f).mgmt.sem = s.mgmt.sem := rfl
@[simp] theorem updFuse_mgmt_ev (f : Fuses → Fuses) : (s.updFuse f).mgmt.ev = s.mgmt.ev := rfl
@[simp] theorem updFuse_mgmt_occq (f : Fuses → Fuses) : (s.updFuse f).mgmt.occq = s.mgmt.occq := rfl
@[simp] theorem updFuse_mgmt_evLost (f : Fuses → Fuses) : (s.updFuse f).mgmt.evLost = s.mgmt.evLost := rfl
@[simp] theorem updFuse_mgmt_evLostLast (f : Fuses → Fuses) : (s.updFuse f).mgmt.evLostLast = s.mgmt.evLostLast := rfl
@[simp] theorem updFuse_mgmt_log (f : Fuses → Fuses) : (s.updFuse f).mgmt.log = s.mgmt.log := rfl
@[simp] theorem updFuse_mgmt_i3c (f : Fuses → Fuses) : (s.updFuse f).mgmt.i3c = s.mgmt.i3c := rfl
@[simp] theorem updFuse_mgmt_i3cStatic (f : Fuses → Fuses) : (s.updFuse f).mgmt.i3cStatic = s.mgmt.i3cStatic := rfl
@[simp] theorem updFuse_mgmt_cycleWr (f : Fuses → Fuses) : (s.updFuse f).mgmt.cycleWr = s.mgmt.cycleWr := rfl
@[simp] theorem updFuse_mgmt_fuse (f : Fuses → Fuses) : (s.updFuse f).mgmt.fuse = f s.mgmt.fuse := rfl
@[simp] theorem updFuse_mgmt_scrub (f : Fuses → Fuses) : (s.updFuse f).mgmt.scrub = s.mgmt.scrub := rfl
@[simp] theorem updFuse_mgmt_therm (f : Fuses → Fuses) : (s.updFuse f).mgmt.therm = s.mgmt.therm := rfl
@[simp] theorem updFuse_mgmt_postAon (f : Fuses → Fuses) : (s.updFuse f).mgmt.postAon = s.mgmt.postAon := rfl
@[simp] theorem updFuse_mgmt_postTsv (f : Fuses → Fuses) : (s.updFuse f).mgmt.postTsv = s.mgmt.postTsv := rfl
@[simp] theorem updFuse_mgmt_lastAcc (f : Fuses → Fuses) : (s.updFuse f).mgmt.lastAcc = s.mgmt.lastAcc := rfl

@[simp] theorem updFw_clk (f : Fw → Fw) : (s.updFw f).clk = s.clk := rfl
@[simp] theorem updFw_hlm (f : Fw → Fw) : (s.updFw f).hlm = s.hlm := rfl
@[simp] theorem updFw_port (f : Fw → Fw) : (s.updFw f).port = s.port := rfl
@[simp] theorem updFw_chan (f : Fw → Fw) : (s.updFw f).chan = s.chan := rfl
@[simp] theorem updFw_map (f : Fw → Fw) : (s.updFw f).map = s.map := rfl
@[simp] theorem updFw_dram (f : Fw → Fw) : (s.updFw f).dram = s.dram := rfl
@[simp] theorem updFw_poisonLines (f : Fw → Fw) : (s.updFw f).poisonLines = s.poisonLines := rfl
@[simp] theorem updFw_pwr (f : Fw → Fw) : (s.updFw f).pwr = s.pwr := rfl
@[simp] theorem updFw_boot (f : Fw → Fw) : (s.updFw f).boot = s.boot := rfl
@[simp] theorem updFw_pending (f : Fw → Fw) : (s.updFw f).pending = s.pending := rfl
@[simp] theorem updFw_mgmt_fw (f : Fw → Fw) : (s.updFw f).mgmt.fw = f s.mgmt.fw := rfl
@[simp] theorem updFw_mgmt_mb (f : Fw → Fw) : (s.updFw f).mgmt.mb = s.mgmt.mb := rfl
@[simp] theorem updFw_mgmt_sem (f : Fw → Fw) : (s.updFw f).mgmt.sem = s.mgmt.sem := rfl
@[simp] theorem updFw_mgmt_ev (f : Fw → Fw) : (s.updFw f).mgmt.ev = s.mgmt.ev := rfl
@[simp] theorem updFw_mgmt_occq (f : Fw → Fw) : (s.updFw f).mgmt.occq = s.mgmt.occq := rfl
@[simp] theorem updFw_mgmt_evLost (f : Fw → Fw) : (s.updFw f).mgmt.evLost = s.mgmt.evLost := rfl
@[simp] theorem updFw_mgmt_evLostLast (f : Fw → Fw) : (s.updFw f).mgmt.evLostLast = s.mgmt.evLostLast := rfl
@[simp] theorem updFw_mgmt_log (f : Fw → Fw) : (s.updFw f).mgmt.log = s.mgmt.log := rfl
@[simp] theorem updFw_mgmt_i3c (f : Fw → Fw) : (s.updFw f).mgmt.i3c = s.mgmt.i3c := rfl
@[simp] theorem updFw_mgmt_i3cStatic (f : Fw → Fw) : (s.updFw f).mgmt.i3cStatic = s.mgmt.i3cStatic := rfl
@[simp] theorem updFw_mgmt_cycleWr (f : Fw → Fw) : (s.updFw f).mgmt.cycleWr = s.mgmt.cycleWr := rfl
@[simp] theorem updFw_mgmt_fuse (f : Fw → Fw) : (s.updFw f).mgmt.fuse = s.mgmt.fuse := rfl
@[simp] theorem updFw_mgmt_scrub (f : Fw → Fw) : (s.updFw f).mgmt.scrub = s.mgmt.scrub := rfl
@[simp] theorem updFw_mgmt_therm (f : Fw → Fw) : (s.updFw f).mgmt.therm = s.mgmt.therm := rfl
@[simp] theorem updFw_mgmt_postAon (f : Fw → Fw) : (s.updFw f).mgmt.postAon = s.mgmt.postAon := rfl
@[simp] theorem updFw_mgmt_postTsv (f : Fw → Fw) : (s.updFw f).mgmt.postTsv = s.mgmt.postTsv := rfl
@[simp] theorem updFw_mgmt_lastAcc (f : Fw → Fw) : (s.updFw f).mgmt.lastAcc = s.mgmt.lastAcc := rfl

@[simp] theorem updScrub_clk (f : Scrub → Scrub) : (s.updScrub f).clk = s.clk := rfl
@[simp] theorem updScrub_hlm (f : Scrub → Scrub) : (s.updScrub f).hlm = s.hlm := rfl
@[simp] theorem updScrub_port (f : Scrub → Scrub) : (s.updScrub f).port = s.port := rfl
@[simp] theorem updScrub_chan (f : Scrub → Scrub) : (s.updScrub f).chan = s.chan := rfl
@[simp] theorem updScrub_map (f : Scrub → Scrub) : (s.updScrub f).map = s.map := rfl
@[simp] theorem updScrub_dram (f : Scrub → Scrub) : (s.updScrub f).dram = s.dram := rfl
@[simp] theorem updScrub_poisonLines (f : Scrub → Scrub) : (s.updScrub f).poisonLines = s.poisonLines := rfl
@[simp] theorem updScrub_pwr (f : Scrub → Scrub) : (s.updScrub f).pwr = s.pwr := rfl
@[simp] theorem updScrub_boot (f : Scrub → Scrub) : (s.updScrub f).boot = s.boot := rfl
@[simp] theorem updScrub_pending (f : Scrub → Scrub) : (s.updScrub f).pending = s.pending := rfl
@[simp] theorem updScrub_mgmt_fw (f : Scrub → Scrub) : (s.updScrub f).mgmt.fw = s.mgmt.fw := rfl
@[simp] theorem updScrub_mgmt_mb (f : Scrub → Scrub) : (s.updScrub f).mgmt.mb = s.mgmt.mb := rfl
@[simp] theorem updScrub_mgmt_sem (f : Scrub → Scrub) : (s.updScrub f).mgmt.sem = s.mgmt.sem := rfl
@[simp] theorem updScrub_mgmt_ev (f : Scrub → Scrub) : (s.updScrub f).mgmt.ev = s.mgmt.ev := rfl
@[simp] theorem updScrub_mgmt_occq (f : Scrub → Scrub) : (s.updScrub f).mgmt.occq = s.mgmt.occq := rfl
@[simp] theorem updScrub_mgmt_evLost (f : Scrub → Scrub) : (s.updScrub f).mgmt.evLost = s.mgmt.evLost := rfl
@[simp] theorem updScrub_mgmt_evLostLast (f : Scrub → Scrub) : (s.updScrub f).mgmt.evLostLast = s.mgmt.evLostLast := rfl
@[simp] theorem updScrub_mgmt_log (f : Scrub → Scrub) : (s.updScrub f).mgmt.log = s.mgmt.log := rfl
@[simp] theorem updScrub_mgmt_i3c (f : Scrub → Scrub) : (s.updScrub f).mgmt.i3c = s.mgmt.i3c := rfl
@[simp] theorem updScrub_mgmt_i3cStatic (f : Scrub → Scrub) : (s.updScrub f).mgmt.i3cStatic = s.mgmt.i3cStatic := rfl
@[simp] theorem updScrub_mgmt_cycleWr (f : Scrub → Scrub) : (s.updScrub f).mgmt.cycleWr = s.mgmt.cycleWr := rfl
@[simp] theorem updScrub_mgmt_fuse (f : Scrub → Scrub) : (s.updScrub f).mgmt.fuse = s.mgmt.fuse := rfl
@[simp] theorem updScrub_mgmt_scrub (f : Scrub → Scrub) : (s.updScrub f).mgmt.scrub = f s.mgmt.scrub := rfl
@[simp] theorem updScrub_mgmt_therm (f : Scrub → Scrub) : (s.updScrub f).mgmt.therm = s.mgmt.therm := rfl
@[simp] theorem updScrub_mgmt_postAon (f : Scrub → Scrub) : (s.updScrub f).mgmt.postAon = s.mgmt.postAon := rfl
@[simp] theorem updScrub_mgmt_postTsv (f : Scrub → Scrub) : (s.updScrub f).mgmt.postTsv = s.mgmt.postTsv := rfl
@[simp] theorem updScrub_mgmt_lastAcc (f : Scrub → Scrub) : (s.updScrub f).mgmt.lastAcc = s.mgmt.lastAcc := rfl

@[simp] theorem updTherm_clk (f : Thermal → Thermal) : (s.updTherm f).clk = s.clk := rfl
@[simp] theorem updTherm_hlm (f : Thermal → Thermal) : (s.updTherm f).hlm = s.hlm := rfl
@[simp] theorem updTherm_port (f : Thermal → Thermal) : (s.updTherm f).port = s.port := rfl
@[simp] theorem updTherm_chan (f : Thermal → Thermal) : (s.updTherm f).chan = s.chan := rfl
@[simp] theorem updTherm_map (f : Thermal → Thermal) : (s.updTherm f).map = s.map := rfl
@[simp] theorem updTherm_dram (f : Thermal → Thermal) : (s.updTherm f).dram = s.dram := rfl
@[simp] theorem updTherm_poisonLines (f : Thermal → Thermal) : (s.updTherm f).poisonLines = s.poisonLines := rfl
@[simp] theorem updTherm_pwr (f : Thermal → Thermal) : (s.updTherm f).pwr = s.pwr := rfl
@[simp] theorem updTherm_boot (f : Thermal → Thermal) : (s.updTherm f).boot = s.boot := rfl
@[simp] theorem updTherm_pending (f : Thermal → Thermal) : (s.updTherm f).pending = s.pending := rfl
@[simp] theorem updTherm_mgmt_fw (f : Thermal → Thermal) : (s.updTherm f).mgmt.fw = s.mgmt.fw := rfl
@[simp] theorem updTherm_mgmt_mb (f : Thermal → Thermal) : (s.updTherm f).mgmt.mb = s.mgmt.mb := rfl
@[simp] theorem updTherm_mgmt_sem (f : Thermal → Thermal) : (s.updTherm f).mgmt.sem = s.mgmt.sem := rfl
@[simp] theorem updTherm_mgmt_ev (f : Thermal → Thermal) : (s.updTherm f).mgmt.ev = s.mgmt.ev := rfl
@[simp] theorem updTherm_mgmt_occq (f : Thermal → Thermal) : (s.updTherm f).mgmt.occq = s.mgmt.occq := rfl
@[simp] theorem updTherm_mgmt_evLost (f : Thermal → Thermal) : (s.updTherm f).mgmt.evLost = s.mgmt.evLost := rfl
@[simp] theorem updTherm_mgmt_evLostLast (f : Thermal → Thermal) : (s.updTherm f).mgmt.evLostLast = s.mgmt.evLostLast := rfl
@[simp] theorem updTherm_mgmt_log (f : Thermal → Thermal) : (s.updTherm f).mgmt.log = s.mgmt.log := rfl
@[simp] theorem updTherm_mgmt_i3c (f : Thermal → Thermal) : (s.updTherm f).mgmt.i3c = s.mgmt.i3c := rfl
@[simp] theorem updTherm_mgmt_i3cStatic (f : Thermal → Thermal) : (s.updTherm f).mgmt.i3cStatic = s.mgmt.i3cStatic := rfl
@[simp] theorem updTherm_mgmt_cycleWr (f : Thermal → Thermal) : (s.updTherm f).mgmt.cycleWr = s.mgmt.cycleWr := rfl
@[simp] theorem updTherm_mgmt_fuse (f : Thermal → Thermal) : (s.updTherm f).mgmt.fuse = s.mgmt.fuse := rfl
@[simp] theorem updTherm_mgmt_scrub (f : Thermal → Thermal) : (s.updTherm f).mgmt.scrub = s.mgmt.scrub := rfl
@[simp] theorem updTherm_mgmt_therm (f : Thermal → Thermal) : (s.updTherm f).mgmt.therm = f s.mgmt.therm := rfl
@[simp] theorem updTherm_mgmt_postAon (f : Thermal → Thermal) : (s.updTherm f).mgmt.postAon = s.mgmt.postAon := rfl
@[simp] theorem updTherm_mgmt_postTsv (f : Thermal → Thermal) : (s.updTherm f).mgmt.postTsv = s.mgmt.postTsv := rfl
@[simp] theorem updTherm_mgmt_lastAcc (f : Thermal → Thermal) : (s.updTherm f).mgmt.lastAcc = s.mgmt.lastAcc := rfl

@[simp] theorem updI3c_clk (t : Fin 4) (f : I3cTgt → I3cTgt) : (s.updI3c t f).clk = s.clk := rfl
@[simp] theorem updI3c_hlm (t : Fin 4) (f : I3cTgt → I3cTgt) : (s.updI3c t f).hlm = s.hlm := rfl
@[simp] theorem updI3c_port (t : Fin 4) (f : I3cTgt → I3cTgt) : (s.updI3c t f).port = s.port := rfl
@[simp] theorem updI3c_chan (t : Fin 4) (f : I3cTgt → I3cTgt) : (s.updI3c t f).chan = s.chan := rfl
@[simp] theorem updI3c_map (t : Fin 4) (f : I3cTgt → I3cTgt) : (s.updI3c t f).map = s.map := rfl
@[simp] theorem updI3c_dram (t : Fin 4) (f : I3cTgt → I3cTgt) : (s.updI3c t f).dram = s.dram := rfl
@[simp] theorem updI3c_poisonLines (t : Fin 4) (f : I3cTgt → I3cTgt) : (s.updI3c t f).poisonLines = s.poisonLines := rfl
@[simp] theorem updI3c_pwr (t : Fin 4) (f : I3cTgt → I3cTgt) : (s.updI3c t f).pwr = s.pwr := rfl
@[simp] theorem updI3c_boot (t : Fin 4) (f : I3cTgt → I3cTgt) : (s.updI3c t f).boot = s.boot := rfl
@[simp] theorem updI3c_pending (t : Fin 4) (f : I3cTgt → I3cTgt) : (s.updI3c t f).pending = s.pending := rfl
@[simp] theorem updI3c_mgmt_fw (t : Fin 4) (f : I3cTgt → I3cTgt) : (s.updI3c t f).mgmt.fw = s.mgmt.fw := rfl
@[simp] theorem updI3c_mgmt_mb (t : Fin 4) (f : I3cTgt → I3cTgt) : (s.updI3c t f).mgmt.mb = s.mgmt.mb := rfl
@[simp] theorem updI3c_mgmt_sem (t : Fin 4) (f : I3cTgt → I3cTgt) : (s.updI3c t f).mgmt.sem = s.mgmt.sem := rfl
@[simp] theorem updI3c_mgmt_ev (t : Fin 4) (f : I3cTgt → I3cTgt) : (s.updI3c t f).mgmt.ev = s.mgmt.ev := rfl
@[simp] theorem updI3c_mgmt_occq (t : Fin 4) (f : I3cTgt → I3cTgt) : (s.updI3c t f).mgmt.occq = s.mgmt.occq := rfl
@[simp] theorem updI3c_mgmt_evLost (t : Fin 4) (f : I3cTgt → I3cTgt) : (s.updI3c t f).mgmt.evLost = s.mgmt.evLost := rfl
@[simp] theorem updI3c_mgmt_evLostLast (t : Fin 4) (f : I3cTgt → I3cTgt) : (s.updI3c t f).mgmt.evLostLast = s.mgmt.evLostLast := rfl
@[simp] theorem updI3c_mgmt_log (t : Fin 4) (f : I3cTgt → I3cTgt) : (s.updI3c t f).mgmt.log = s.mgmt.log := rfl
@[simp] theorem updI3c_mgmt_i3c (t : Fin 4) (f : I3cTgt → I3cTgt) : (s.updI3c t f).mgmt.i3c = upd s.mgmt.i3c t f := rfl
@[simp] theorem updI3c_mgmt_i3cStatic (t : Fin 4) (f : I3cTgt → I3cTgt) : (s.updI3c t f).mgmt.i3cStatic = s.mgmt.i3cStatic := rfl
@[simp] theorem updI3c_mgmt_cycleWr (t : Fin 4) (f : I3cTgt → I3cTgt) : (s.updI3c t f).mgmt.cycleWr = s.mgmt.cycleWr := rfl
@[simp] theorem updI3c_mgmt_fuse (t : Fin 4) (f : I3cTgt → I3cTgt) : (s.updI3c t f).mgmt.fuse = s.mgmt.fuse := rfl
@[simp] theorem updI3c_mgmt_scrub (t : Fin 4) (f : I3cTgt → I3cTgt) : (s.updI3c t f).mgmt.scrub = s.mgmt.scrub := rfl
@[simp] theorem updI3c_mgmt_therm (t : Fin 4) (f : I3cTgt → I3cTgt) : (s.updI3c t f).mgmt.therm = s.mgmt.therm := rfl
@[simp] theorem updI3c_mgmt_postAon (t : Fin 4) (f : I3cTgt → I3cTgt) : (s.updI3c t f).mgmt.postAon = s.mgmt.postAon := rfl
@[simp] theorem updI3c_mgmt_postTsv (t : Fin 4) (f : I3cTgt → I3cTgt) : (s.updI3c t f).mgmt.postTsv = s.mgmt.postTsv := rfl
@[simp] theorem updI3c_mgmt_lastAcc (t : Fin 4) (f : I3cTgt → I3cTgt) : (s.updI3c t f).mgmt.lastAcc = s.mgmt.lastAcc := rfl

@[simp] theorem mapMb_clk (f : Mb → Mailbox → Mailbox) : (s.mapMb f).clk = s.clk := by dsimp only [State.mapMb, State.updMgmt]
@[simp] theorem mapMb_hlm (f : Mb → Mailbox → Mailbox) : (s.mapMb f).hlm = s.hlm := by dsimp only [State.mapMb, State.updMgmt]
@[simp] theorem mapMb_port (f : Mb → Mailbox → Mailbox) : (s.mapMb f).port = s.port := by dsimp only [State.mapMb, State.updMgmt]
@[simp] theorem mapMb_chan (f : Mb → Mailbox → Mailbox) : (s.mapMb f).chan = s.chan := by dsimp only [State.mapMb, State.updMgmt]
@[simp] theorem mapMb_map (f : Mb → Mailbox → Mailbox) : (s.mapMb f).map = s.map := by dsimp only [State.mapMb, State.updMgmt]
@[simp] theorem mapMb_dram (f : Mb → Mailbox → Mailbox) : (s.mapMb f).dram = s.dram := by dsimp only [State.mapMb, State.updMgmt]
@[simp] theorem mapMb_poisonLines (f : Mb → Mailbox → Mailbox) : (s.mapMb f).poisonLines = s.poisonLines := by dsimp only [State.mapMb, State.updMgmt]
@[simp] theorem mapMb_pwr (f : Mb → Mailbox → Mailbox) : (s.mapMb f).pwr = s.pwr := by dsimp only [State.mapMb, State.updMgmt]
@[simp] theorem mapMb_boot (f : Mb → Mailbox → Mailbox) : (s.mapMb f).boot = s.boot := by dsimp only [State.mapMb, State.updMgmt]
@[simp] theorem mapMb_pending (f : Mb → Mailbox → Mailbox) : (s.mapMb f).pending = s.pending := by dsimp only [State.mapMb, State.updMgmt]
@[simp] theorem mapMb_mgmt_fw (f : Mb → Mailbox → Mailbox) : (s.mapMb f).mgmt.fw = s.mgmt.fw := by dsimp only [State.mapMb, State.updMgmt]
@[simp] theorem mapMb_mgmt_mb (f : Mb → Mailbox → Mailbox) : (s.mapMb f).mgmt.mb = Vector.ofFn fun i => f i (s.mgmt.mb.get i) := by dsimp only [State.mapMb, State.updMgmt]
@[simp] theorem mapMb_mgmt_sem (f : Mb → Mailbox → Mailbox) : (s.mapMb f).mgmt.sem = s.mgmt.sem := by dsimp only [State.mapMb, State.updMgmt]
@[simp] theorem mapMb_mgmt_ev (f : Mb → Mailbox → Mailbox) : (s.mapMb f).mgmt.ev = s.mgmt.ev := by dsimp only [State.mapMb, State.updMgmt]
@[simp] theorem mapMb_mgmt_occq (f : Mb → Mailbox → Mailbox) : (s.mapMb f).mgmt.occq = s.mgmt.occq := by dsimp only [State.mapMb, State.updMgmt]
@[simp] theorem mapMb_mgmt_evLost (f : Mb → Mailbox → Mailbox) : (s.mapMb f).mgmt.evLost = s.mgmt.evLost := by dsimp only [State.mapMb, State.updMgmt]
@[simp] theorem mapMb_mgmt_evLostLast (f : Mb → Mailbox → Mailbox) : (s.mapMb f).mgmt.evLostLast = s.mgmt.evLostLast := by dsimp only [State.mapMb, State.updMgmt]
@[simp] theorem mapMb_mgmt_log (f : Mb → Mailbox → Mailbox) : (s.mapMb f).mgmt.log = s.mgmt.log := by dsimp only [State.mapMb, State.updMgmt]
@[simp] theorem mapMb_mgmt_i3c (f : Mb → Mailbox → Mailbox) : (s.mapMb f).mgmt.i3c = s.mgmt.i3c := by dsimp only [State.mapMb, State.updMgmt]
@[simp] theorem mapMb_mgmt_i3cStatic (f : Mb → Mailbox → Mailbox) : (s.mapMb f).mgmt.i3cStatic = s.mgmt.i3cStatic := by dsimp only [State.mapMb, State.updMgmt]
@[simp] theorem mapMb_mgmt_cycleWr (f : Mb → Mailbox → Mailbox) : (s.mapMb f).mgmt.cycleWr = s.mgmt.cycleWr := by dsimp only [State.mapMb, State.updMgmt]
@[simp] theorem mapMb_mgmt_fuse (f : Mb → Mailbox → Mailbox) : (s.mapMb f).mgmt.fuse = s.mgmt.fuse := by dsimp only [State.mapMb, State.updMgmt]
@[simp] theorem mapMb_mgmt_scrub (f : Mb → Mailbox → Mailbox) : (s.mapMb f).mgmt.scrub = s.mgmt.scrub := by dsimp only [State.mapMb, State.updMgmt]
@[simp] theorem mapMb_mgmt_therm (f : Mb → Mailbox → Mailbox) : (s.mapMb f).mgmt.therm = s.mgmt.therm := by dsimp only [State.mapMb, State.updMgmt]
@[simp] theorem mapMb_mgmt_postAon (f : Mb → Mailbox → Mailbox) : (s.mapMb f).mgmt.postAon = s.mgmt.postAon := by dsimp only [State.mapMb, State.updMgmt]
@[simp] theorem mapMb_mgmt_postTsv (f : Mb → Mailbox → Mailbox) : (s.mapMb f).mgmt.postTsv = s.mgmt.postTsv := by dsimp only [State.mapMb, State.updMgmt]
@[simp] theorem mapMb_mgmt_lastAcc (f : Mb → Mailbox → Mailbox) : (s.mapMb f).mgmt.lastAcc = s.mgmt.lastAcc := by dsimp only [State.mapMb, State.updMgmt]

@[simp] theorem raise_clk (e : Ev) (c : BitVec 8) (a : BitVec 24) (b : Word) : (s.raise e c a b).clk = s.clk := rfl
@[simp] theorem raise_hlm (e : Ev) (c : BitVec 8) (a : BitVec 24) (b : Word) : (s.raise e c a b).hlm = s.hlm := rfl
@[simp] theorem raise_port (e : Ev) (c : BitVec 8) (a : BitVec 24) (b : Word) : (s.raise e c a b).port = s.port := rfl
@[simp] theorem raise_chan (e : Ev) (c : BitVec 8) (a : BitVec 24) (b : Word) : (s.raise e c a b).chan = s.chan := rfl
@[simp] theorem raise_map (e : Ev) (c : BitVec 8) (a : BitVec 24) (b : Word) : (s.raise e c a b).map = s.map := rfl
@[simp] theorem raise_dram (e : Ev) (c : BitVec 8) (a : BitVec 24) (b : Word) : (s.raise e c a b).dram = s.dram := rfl
@[simp] theorem raise_poisonLines (e : Ev) (c : BitVec 8) (a : BitVec 24) (b : Word) : (s.raise e c a b).poisonLines = s.poisonLines := rfl
@[simp] theorem raise_pwr (e : Ev) (c : BitVec 8) (a : BitVec 24) (b : Word) : (s.raise e c a b).pwr = s.pwr := rfl
@[simp] theorem raise_boot (e : Ev) (c : BitVec 8) (a : BitVec 24) (b : Word) : (s.raise e c a b).boot = s.boot := rfl
@[simp] theorem raise_pending (e : Ev) (c : BitVec 8) (a : BitVec 24) (b : Word) : (s.raise e c a b).pending = s.pending := rfl
@[simp] theorem raise_mgmt_fw (e : Ev) (c : BitVec 8) (a : BitVec 24) (b : Word) : (s.raise e c a b).mgmt.fw = s.mgmt.fw := rfl
@[simp] theorem raise_mgmt_mb (e : Ev) (c : BitVec 8) (a : BitVec 24) (b : Word) : (s.raise e c a b).mgmt.mb = s.mgmt.mb := rfl
@[simp] theorem raise_mgmt_sem (e : Ev) (c : BitVec 8) (a : BitVec 24) (b : Word) : (s.raise e c a b).mgmt.sem = s.mgmt.sem := rfl
@[simp] theorem raise_mgmt_ev (e : Ev) (c : BitVec 8) (a : BitVec 24) (b : Word) : (s.raise e c a b).mgmt.ev = s.mgmt.ev := rfl
@[simp] theorem raise_mgmt_occq (e : Ev) (c : BitVec 8) (a : BitVec 24) (b : Word) : (s.raise e c a b).mgmt.occq = s.mgmt.occq ++ [{ e := e, cause := c, detA := a, detB := b, tb := s.clk.timeBase }] := rfl
@[simp] theorem raise_mgmt_evLost (e : Ev) (c : BitVec 8) (a : BitVec 24) (b : Word) : (s.raise e c a b).mgmt.evLost = s.mgmt.evLost := rfl
@[simp] theorem raise_mgmt_evLostLast (e : Ev) (c : BitVec 8) (a : BitVec 24) (b : Word) : (s.raise e c a b).mgmt.evLostLast = s.mgmt.evLostLast := rfl
@[simp] theorem raise_mgmt_log (e : Ev) (c : BitVec 8) (a : BitVec 24) (b : Word) : (s.raise e c a b).mgmt.log = s.mgmt.log := rfl
@[simp] theorem raise_mgmt_i3c (e : Ev) (c : BitVec 8) (a : BitVec 24) (b : Word) : (s.raise e c a b).mgmt.i3c = s.mgmt.i3c := rfl
@[simp] theorem raise_mgmt_i3cStatic (e : Ev) (c : BitVec 8) (a : BitVec 24) (b : Word) : (s.raise e c a b).mgmt.i3cStatic = s.mgmt.i3cStatic := rfl
@[simp] theorem raise_mgmt_cycleWr (e : Ev) (c : BitVec 8) (a : BitVec 24) (b : Word) : (s.raise e c a b).mgmt.cycleWr = s.mgmt.cycleWr := rfl
@[simp] theorem raise_mgmt_fuse (e : Ev) (c : BitVec 8) (a : BitVec 24) (b : Word) : (s.raise e c a b).mgmt.fuse = s.mgmt.fuse := rfl
@[simp] theorem raise_mgmt_scrub (e : Ev) (c : BitVec 8) (a : BitVec 24) (b : Word) : (s.raise e c a b).mgmt.scrub = s.mgmt.scrub := rfl
@[simp] theorem raise_mgmt_therm (e : Ev) (c : BitVec 8) (a : BitVec 24) (b : Word) : (s.raise e c a b).mgmt.therm = s.mgmt.therm := rfl
@[simp] theorem raise_mgmt_postAon (e : Ev) (c : BitVec 8) (a : BitVec 24) (b : Word) : (s.raise e c a b).mgmt.postAon = s.mgmt.postAon := rfl
@[simp] theorem raise_mgmt_postTsv (e : Ev) (c : BitVec 8) (a : BitVec 24) (b : Word) : (s.raise e c a b).mgmt.postTsv = s.mgmt.postTsv := rfl
@[simp] theorem raise_mgmt_lastAcc (e : Ev) (c : BitVec 8) (a : BitVec 24) (b : Word) : (s.raise e c a b).mgmt.lastAcc = s.mgmt.lastAcc := rfl

theorem mb_def (k : Mb) : s.mb k = s.mgmt.mb.get k := rfl
@[simp] theorem fw_def : s.fw = s.mgmt.fw := rfl
@[simp] theorem now_def : s.now = s.clk.now := rfl
@[simp] theorem tb_def : s.tb = s.clk.timeBase.toNat := rfl

end Sys2Proof.Machine
end

