-- ==== Sys2Proof/Laws/Word.lean ====
section
/-! SUPPORT. Reading a fixed array after an update. -/

namespace Sys2Proof

@[simp] theorem upd_get_same {α : Type} {n : Nat} (v : Vector α n) (i : Fin n) (f : α → α) :
    (upd v i f).get i = f (v.get i) := by
  show (upd v i f)[i.val] = f v[i.val]
  simp [upd, Vector.get]

theorem upd_get_ne {α : Type} {n : Nat} (v : Vector α n) (i j : Fin n) (f : α → α) (h : j ≠ i) :
    (upd v i f).get j = v.get j := by
  have : i.val ≠ j.val := fun e => h (Fin.ext e.symm)
  show (upd v i f)[j.val] = v[j.val]
  simp [upd, this]

theorem upd_get {α : Type} {n : Nat} (v : Vector α n) (i j : Fin n) (f : α → α) :
    (upd v i f).get j = if j = i then f (v.get j) else v.get j := by
  split
  · next h => subst h; exact upd_get_same v _ f
  · next h => exact upd_get_ne v i j f h

/-- Two updates of one element are one. -/
theorem upd_upd {α : Type} {n : Nat} (v : Vector α n) (i : Fin n) (f g : α → α) :
    upd (upd v i f) i g = upd v i fun x => g (f x) := by
  unfold upd
  rw [Vector.set_set]
  congr 1
  show g ((v.set i.val (f (v.get i)) i.isLt)[i.val]) = _
  simp

/-- Only what a function makes of the element matters. -/
theorem upd_congr {α : Type} {n : Nat} (v : Vector α n) (i : Fin n) {f g : α → α} (h : f (v.get i) = g (v.get i)) :
    upd v i f = upd v i g := by
  unfold upd; rw [h]

@[simp] theorem ofFn_get {α : Type} {n : Nat} (f : Fin n → α) (i : Fin n) : (Vector.ofFn f).get i = f i := by
  show (Vector.ofFn f)[i.val] = f i
  simp

@[simp] theorem replicate_get {α : Type} {n : Nat} (a : α) (i : Fin n) : (Vector.replicate n a).get i = a := by
  show (Vector.replicate n a)[i.val] = a
  simp

end Sys2Proof
end

