-- ==== Sys2Proof/Laws/Ops.lean ====
section
/-! SUPPORT. Updates of the units of a state: two of one unit are one, those of different kinds can change places; what the
shared operations on time, free values, occurrences and responses do. -/

namespace Sys2Proof.Machine

variable (s : State)

theorem updHlm_updHlm (m : Mod) (f g : Hlm → Hlm) :
    (s.updHlm m f).updHlm m g = s.updHlm m fun x => g (f x) := by
  dsimp only [State.updHlm]; rw [upd_upd]
theorem updPort_updPort (k : PortK) (f g : Port → Port) :
    (s.updPort k f).updPort k g = s.updPort k fun x => g (f x) := by
  dsimp only [State.updPort]; rw [upd_upd]
theorem updChan_updChan (n : Ch) (f g : Chan → Chan) :
    (s.updChan n f).updChan n g = s.updChan n fun x => g (f x) := by
  dsimp only [State.updChan]; rw [upd_upd]
theorem updMgmt_updMgmt (f g : Mgmt → Mgmt) : (s.updMgmt f).updMgmt g = s.updMgmt fun x => g (f x) := rfl
theorem updPwr_updPwr (f g : Power → Power) : (s.updPwr f).updPwr g = s.updPwr fun x => g (f x) := rfl
theorem updBoot_updBoot (f g : Boot → Boot) : (s.updBoot f).updBoot g = s.updBoot fun x => g (f x) := rfl
theorem updMap_updMap (f g : Map → Map) : (s.updMap f).updMap g = s.updMap fun x => g (f x) := rfl
theorem updClk_updClk (f g : Clock → Clock) : (s.updClk f).updClk g = s.updClk fun x => g (f x) := rfl
theorem updHlm_updPort (m : Mod) (k : PortK) (f : Hlm → Hlm) (g : Port → Port) :
    (s.updHlm m f).updPort k g = (s.updPort k g).updHlm m f := rfl
theorem updHlm_updChan (m : Mod) (n : Ch) (f : Hlm → Hlm) (g : Chan → Chan) :
    (s.updHlm m f).updChan n g = (s.updChan n g).updHlm m f := rfl
theorem updHlm_updMgmt (m : Mod) (f : Hlm → Hlm) (g : Mgmt → Mgmt) :
    (s.updHlm m f).updMgmt g = (s.updMgmt g).updHlm m f := rfl
theorem updHlm_updPwr (m : Mod) (f : Hlm → Hlm) (g : Power → Power) :
    (s.updHlm m f).updPwr g = (s.updPwr g).updHlm m f := rfl
theorem updHlm_updBoot (m : Mod) (f : Hlm → Hlm) (g : Boot → Boot) :
    (s.updHlm m f).updBoot g = (s.updBoot g).updHlm m f := rfl
theorem updHlm_updMap (m : Mod) (f : Hlm → Hlm) (g : Map → Map) :
    (s.updHlm m f).updMap g = (s.updMap g).updHlm m f := rfl
theorem updHlm_updClk (m : Mod) (f : Hlm → Hlm) (g : Clock → Clock) :
    (s.updHlm m f).updClk g = (s.updClk g).updHlm m f := rfl
theorem updPort_updChan (k : PortK) (n : Ch) (f : Port → Port) (g : Chan → Chan) :
    (s.updPort k f).updChan n g = (s.updChan n g).updPort k f := rfl
theorem updPort_updMgmt (k : PortK) (f : Port → Port) (g : Mgmt → Mgmt) :
    (s.updPort k f).updMgmt g = (s.updMgmt g).updPort k f := rfl
theorem updPort_updPwr (k : PortK) (f : Port → Port) (g : Power → Power) :
    (s.updPort k f).updPwr g = (s.updPwr g).updPort k f := rfl
theorem updPort_updBoot (k : PortK) (f : Port → Port) (g : Boot → Boot) :
    (s.updPort k f).updBoot g = (s.updBoot g).updPort k f := rfl
theorem updPort_updMap (k : PortK) (f : Port → Port) (g : Map → Map) :
    (s.updPort k f).updMap g = (s.updMap g).updPort k f := rfl
theorem updPort_updClk (k : PortK) (f : Port → Port) (g : Clock → Clock) :
    (s.updPort k f).updClk g = (s.updClk g).updPort k f := rfl
theorem updChan_updMgmt (n : Ch) (f : Chan → Chan) (g : Mgmt → Mgmt) :
    (s.updChan n f).updMgmt g = (s.updMgmt g).updChan n f := rfl
theorem updChan_updPwr (n : Ch) (f : Chan → Chan) (g : Power → Power) :
    (s.updChan n f).updPwr g = (s.updPwr g).updChan n f := rfl
theorem updChan_updBoot (n : Ch) (f : Chan → Chan) (g : Boot → Boot) :
    (s.updChan n f).updBoot g = (s.updBoot g).updChan n f := rfl
theorem updChan_updMap (n : Ch) (f : Chan → Chan) (g : Map → Map) :
    (s.updChan n f).updMap g = (s.updMap g).updChan n f := rfl
theorem updChan_updClk (n : Ch) (f : Chan → Chan) (g : Clock → Clock) :
    (s.updChan n f).updClk g = (s.updClk g).updChan n f := rfl
theorem updMgmt_updPwr (f : Mgmt → Mgmt) (g : Power → Power) :
    (s.updMgmt f).updPwr g = (s.updPwr g).updMgmt f := rfl
theorem updMgmt_updBoot (f : Mgmt → Mgmt) (g : Boot → Boot) :
    (s.updMgmt f).updBoot g = (s.updBoot g).updMgmt f := rfl
theorem updMgmt_updMap (f : Mgmt → Mgmt) (g : Map → Map) :
    (s.updMgmt f).updMap g = (s.updMap g).updMgmt f := rfl
theorem updMgmt_updClk (f : Mgmt → Mgmt) (g : Clock → Clock) :
    (s.updMgmt f).updClk g = (s.updClk g).updMgmt f := rfl
theorem updPwr_updBoot (f : Power → Power) (g : Boot → Boot) :
    (s.updPwr f).updBoot g = (s.updBoot g).updPwr f := rfl
theorem updPwr_updMap (f : Power → Power) (g : Map → Map) :
    (s.updPwr f).updMap g = (s.updMap g).updPwr f := rfl
theorem updPwr_updClk (f : Power → Power) (g : Clock → Clock) :
    (s.updPwr f).updClk g = (s.updClk g).updPwr f := rfl
theorem updBoot_updMap (f : Boot → Boot) (g : Map → Map) :
    (s.updBoot f).updMap g = (s.updMap g).updBoot f := rfl
theorem updBoot_updClk (f : Boot → Boot) (g : Clock → Clock) :
    (s.updBoot f).updClk g = (s.updClk g).updBoot f := rfl
theorem updMap_updClk (f : Map → Map) (g : Clock → Clock) :
    (s.updMap f).updClk g = (s.updClk g).updMap f := rfl

/-! ## Time -/

theorem advance_now (t : Nat) : (s.advance t).clk.now = max s.clk.now t := by
  dsimp only [State.advance, State.updClk]; split
  · omega
  · dsimp only; omega

/-- Time never runs back. -/
theorem advance_le (t : Nat) : s.clk.now ≤ (s.advance t).clk.now := by rw [advance_now]; omega

theorem advance_of_le {t : Nat} (h : t ≤ s.clk.now) : s.advance t = s := by
  dsimp only [State.advance, State.updClk]; rw [if_pos h]

/-! ## Occurrences, responses -/

theorem raise_mgmt (e : Ev) (c : BitVec 8) (a : BitVec 24) (b : Word) :
    (s.raise e c a b).mgmt = { s.mgmt with occq := s.mgmt.occq ++
      [{ e := e, cause := c, detA := a, detB := b, tb := s.clk.timeBase }] } := rfl

/-- An entry that cannot be aborted is not. -/
theorem abortEntry_of_not {c : BitVec 4} (h : s.pwr.abortable = false) : s.abortEntry c = s := by
  unfold State.abortEntry; simp only [h]; rfl

/-- What the abort of an entry does: the state it left is kept, the abort is counted and reported. -/
theorem abortEntry_of {c : BitVec 4} (h : s.pwr.abortable = true) :
    s.abortEntry c = (((s.updPwr fun p => { p with ph := .none, state := p.from_, target := 0, lastAbort := c, aborts := p.aborts + 1 }).updFw
      fun f => { f with waiting := false }).raiseG 352 (c.setWidth 24) 0) := by
  unfold State.abortEntry; simp only [h, if_true]

end Sys2Proof.Machine
end

