-- ==== Sys2Proof/WellFormed.lean ====
section
/-! DEFINITION. Which operands a command can carry: the checks that the types of the operands leave open. -/

namespace Sys2Proof

/-- R215, R216: an error has a position in the longer codeword and changes its symbol. -/
def SymErr.wf (e : SymErr) : Bool := decide (e.pos < 144) && e.xor != 0

/-- Positions without repeats. -/
def noRepeat : List Nat → Bool
  | [] => true
  | x :: r => !r.contains x && noRepeat r

def errsWf (l : List SymErr) : Bool := l.all SymErr.wf && noRepeat (l.map (·.pos))

/-- R290: an eye lies in the 64 taps. -/
def Eye.wf (e : Eye) : Bool := decide (e.left ≤ e.right) && decide (e.right < 64)

/-- R290: at most `k` measurements. -/
def eyesWf (k : Nat) (l : List (Option Eye)) : Bool := decide (l.length ≤ k) && l.all fun o => o.all Eye.wf

/-- A measured lane is one of `lanes` lanes, measured at most `k` times. -/
def LaneMeas.wf (lanes k : Nat) (x : LaneMeas) : Bool :=
  decide (x.lane < lanes) && eyesWf k x.a && eyesWf k x.b && eyesWf k x.tx

/-- R281: the addresses of mode registers have 8 bits. -/
def DieRead.wf (d : DieRead) : Bool := d.mr.all (fun x => decide (x.1 < 256)) && noRepeat (d.mr.map (·.1))

/-- R287, R290: a lane measured at boot, in at most three triples. -/
def BootLane.wf (x : BootLane) : Bool := match x.pc with
  | some _ => x.meas.wf 38 9
  | none => x.meas.wf 20 9

def BootReport.wf (r : BootReport) : Bool := r.dies.all DieRead.wf && r.lanes.all BootLane.wf

/-- R420: a packet's declared length. -/
def FwLogAct.wf : FwLogAct → Bool
  | .openPkt _ _ d => decide (1 ≤ d) && decide (d ≤ 255)
  | .payload _ => true
  | .closePkt => true

/-- R102: rows that the largest density has. -/
def Loc.wf (l : Loc) : Bool := decide (l.row.toNat < 12288)

/-- R396: an I3C transfer to a target carries at most an offset and a word. -/
def i3cLen (l : List (BitVec 8)) : Bool := decide (l.length ≤ 8)

/-- Commands whose operand types leave something open. -/
def Instr.wf : Instr → Bool
  | .readDataDecode _ _ errs => errsWf errs
  | .pauseMeasurementDone _ _ ms cms => ms.all (LaneMeas.wf 38 3) && cms.all (LaneMeas.wf 20 3)
  | .scrubPaceTick _ l => l.wf
  | .fwLogPacket a => a.wf
  | .bootStepComplete r => r.wf
  | .warmBootStepComplete r => r.wf
  | .tripCheck l => noRepeat (l.map fun x => x.n.val * 4 + x.sid.val)
  | .eyespotVisitEnd _ l => noRepeat (l.map fun x => x.n.val * 4 + x.sid.val)
  | .i3cRegisterWrite _ b => i3cLen b
  | .i3cRegisterRead _ b => i3cLen b
  | .flitReceive .. | .flitTransmit .. | .replayTimeout .. | .nakHoldoffExpiry .. | .retryWindowClose ..
    | .nop .. | .rd64 .. | .rd128 .. | .ldr .. | .hint .. | .wr64 .. | .wrp .. | .stc .. | .amoAdd ..
    | .amoSwap .. | .amoAnd .. | .amoOr .. | .amoXor .. | .amoSmin .. | .amoSmax .. | .amoUmin ..
    | .amoUmax .. | .amoCas .. | .fenceW .. | .fenceAll .. | .fenceComplete .. | .cfgRd .. | .cfgWr ..
    | .srEnter .. | .srEnterAcceptanceArrival .. | .portDrainComplete .. | .hostLinkResetRequest ..
    | .moduleDrainComplete .. | .retrain .. | .linkTrainingDone .. | .trainingRetry ..
    | .crossbarRequestGrant .. | .crossbarResponseGrant .. | .schedulerCc .. | .entryIndexNotice ..
    | .entryAged .. | .writeAgeExpiry .. | .writeBurstDone .. | .atomicUnitOp .. | .lineBufferIdleExpiry ..
    | .pageTimeout .. | .hintTimeout .. | .reservationProtectionExpiry .. | .refillBoundary | .capArrival ..
    | .gateCycleStart .. | .gateEntryEnd .. | .gateCommit .. | .applyRates .. | .portClassChange ..
    | .hwmClr .. | .classHwmClear .. | .policeWindowClose .. | .ceWindowClose .. | .laneMonitorWindow ..
    | .refreshTick .. | .tmpDue .. | .tmpReading .. | .trackerEpochBoundary .. | .sweepDeadline ..
    | .trackerDrainDone .. | .recalPauseStart .. | .urgentPauseStart | .pauseClosed .. | .pauseEnd ..
    | .requalSweepDone .. | .caerrAssert .. | .caerrDeassert .. | .caerrRecoveryWaitDone ..
    | .schedulerWatchdog .. | .illegalControlState .. | .engineRecoveryDone .. | .scrubShareDone ..
    | .scrubPassEnd | .remapFillDone .. | .softRepairSequenceDone .. | .hardRepairSequenceDone ..
    | .twinwingTransitionBegin .. | .twinwingTransitionDone .. | .channelResetDone ..
    | .baseDieSensorReading .. | .tripColumnWindowExpiry .. | .criticalCapEnd .. | .thermalModelStep
    | .budgetRefill | .pririWait | .quietTimeExpiry | .deferMaxExpiry | .srEnterDeferralEnd
    | .entryStepComplete | .parkRefused .. | .pupaRefreshBurstStart .. | .pupaRefreshBurstDone ..
    | .flitActivityWake .. | .sidebandExitRequest .. | .wakePattern .. | .pllLock | .powerUpStepReady ..
    | .wakeComplete .. | .i3cAddressMatch | .eyespotVisitStart | .refclkLoss | .pllLockLoss
    | .refclkLossSequenceDone | .pwrgoodRise | .pwrgoodFall | .rstNAssert | .rstNRelease | .staggerGrant
    | .staggerGrantLow | .staggerGrantTimeout | .bistGroupDone .. | .stagingGo .. | .imageVerifyDone
    | .deliveryTimeout | .fuseOpAck .. | .fuseReadTimeout | .fuseProgramTimeout | .pririWatchdog
    | .fwSramUncorrectable | .pririRestartDone | .warmResetDelayExpiry | .registerWrite .. | .mapCfgWrite ..
    | .postedWriteEffect .. | .aliasWrite .. | .semRead .. | .semWrite .. | .eventOccurrence .. | .eventAck ..
    | .eventHoldoffExpiry .. | .i3cIbiEnabled .. | .i3cIbiNack .. | .i3cStatusRead .. | .logPacketWrite
    | .logPacketTimeout | .logSwapTimer | .logBankSwap | .logPop .. | .flush .. | .mailboxInboundWrite ..
    | .outTake .. | .fwTake .. | .fwPost .. | .windowHold .. | .windowWaitExpiry .. | .getVersion ..
    | .setMailboxOwner .. | .powerStateEnter .. | .powerStateSetIdle .. | .powerStateClearIdle ..
    | .idlePolicyExpiry | .thermalPolicyGet .. | .thermalPolicySetFloor .. | .thermalPolicySetThresholds ..
    | .refreshFloor .. | .trackerPolicy .. | .scrubStart .. | .scrubAbort .. | .scrubStatus ..
    | .remapInstall .. | .remapRelease .. | .pprSoft .. | .pprHard .. | .laneSpare .. | .twinwingEnter ..
    | .twinwingExit .. | .channelDisablePersistent .. | .channelDisableVolatile ..
    | .channelDisableWithdraw .. | .fuseRead .. | .fuseShadowSet .. | .fuseShadowClear .. | .fuseProgram ..
    | .fuseLock .. | .attest .. | .fwStage .. | .fwCommit .. | .logConfigGet .. | .logConfigSet ..
    | .logConfigFlush .. | .bistResults .. | .resetWarm .. | .resetChannel .. | .resetPriri .. | .wsBypass
    | .wsExtest | .wsIntest | .ghBistLaunch .. | .ghBistResult | .ghDbgReg .. | .ghCodecTest
    | .ghFactoryClose .. | .ttSnapshot .. | .trackerSnapshot .. | .linkTrainingFailure .. | .refclkValid
    | .pllLockTimeout | .fuseAckLow => true

end Sys2Proof
end

