-- ==== Sys2Proof/Tests/Slice0.lean ====
section
/-! SUPPORT. Tests: ill-formed terms that the checks refuse, one step each of some commands, and for every statement states
and operands that meet its hypotheses. -/

namespace Sys2Proof.Tests

set_option Elab.async false

open Sys2Proof Sys2Proof.Machine

/-! ## States -/

/-- A state with every domain powered. -/
def wOn : State := State.reset.updPwr fun p => { p with dom := Vector.replicate 39 4 }

/-- The block up, with a full map of one SID. -/
def wMap : State :=
  (wOn.updMap fun q => { q with mapped := BitVec.allOnes 64, nsid := 1 }).updBoot fun b => { b with ph := .up }

/-- The same, with module 2 active. -/
def wUp : State := wMap.updHlm 2 fun h => { h with link := .active }

def wHdr : ReqHdr := { port := 1, tag := 5, szf := 0, addr := 0x1000 }

def wHlm (f : Hlm → Hlm) : State := wUp.updHlm 2 f
/-- The same with the PLL locked. -/
def wLk (f : Hlm → Hlm) : State := (wHlm f).updClk fun k => { k with pllLock := true }

/-- An accepted write of port 1 to line 0x1000. -/
def wRq : Rq :=
  { seq := 0, kind := .wr64, port := 1, tag := 3, cls := 3, ch := 0, twin := false, half := false, loc := ⟨0, 0, 0, 0, 0, 0⟩,
    addr := 0x1000, data := 7, mask := 0, aop := 0, asz := 0, nr := false, yellow := false, accAt := 0, held := false,
    after := 0 }

def wTag : TagRec := { port := 1, tag := 5, seq := 0, kind := .rd64, ch := none, idx := none, accAt := 0 }
def wHdr1 : ReqHdr := { port := 1, tag := 5, szf := 1, addr := 0x1000 }
def wHdr0 : ReqHdr := { port := 1, tag := 5, szf := 0, addr := 0 }
def wHdrU : ReqHdr := { port := 1, tag := 5, szf := 0, addr := 1 }
def wHdrTop : ReqHdr := { port := 1, tag := 5, szf := 0, addr := 0xFFFFFFFFC0 }
def wHdrL : ReqHdr := { port := 1, tag := 5, szf := 0, addr := 0x1008 }
def wFence : Fence := { seq := 0, port := 1, tag := 5, all := false }

/-- A DATA flit with number 0 that acknowledges flit 7 and holds a NOP in slot 0 and a RD64 in slot 1. -/
def wFlitHdr (ftype : BitVec 4) (seq : BitVec 12) : FlitHdr :=
  { nak := false, ackv := true, ccr := 0, wcr := 0, rcr := 0, fhs := 0, ftype := ftype, ack := 7, seq := seq }
/-- Its words written out: the header, empty slots and the CRC. -/
def wFlit (ftype : BitVec 4) : BitVec 2048 :=
  if ftype = 1 then BitVec.ofNat 2048 (0x2000001007000 + 2 ^ 1984 * 0x29fb6349c24d784f)
  else if ftype = 2 then BitVec.ofNat 2048 (0x2000002007000 + 2 ^ 1984 * 0xfd34321a5430629d)
  else BitVec.ofNat 2048 (0x2000003007000 + 2 ^ 1984 * 0x70dea272414286a2)
/-- The same with a NAK. -/
def wFlitNak (ftype : BitVec 4) : BitVec 2048 :=
  if ftype = 1 then BitVec.ofNat 2048 (0x6000001007000 + 2 ^ 1984 * 0xf56dc835740c944f)
  else BitVec.ofNat 2048 (0x6000002007000 + 2 ^ 1984 * 0x21a29966e2718e9d)
def wTx (sends : Nat) : TxFlit :=
  { seq := 7, fhs := 0, rcr := 1, wcr := 0, ccr := 0, slots := 0, sends := sends, sentAt := 100 }
/-- A flit that an acknowledgment of flit 7 leaves. -/
def wTxAt (sends : Nat) : TxFlit := { wTx sends with seq := 8 }
def wWin : Window := { openedAt := 50, length := 1000, thresh := 3, count := 1 }
def wMgmt (f : Mgmt → Mgmt) : State := wUp.updMgmt f
def wFw (f : Fw → Fw) : State := wUp.updFw fun x => f { x with st := .ready }
def wMb (k : Mb) (f : Mailbox → Mailbox) : State := (wFw id).updMb k fun b => f { b with owner := some 0x21 }
def wOcc (e : Ev) : Occ := { e := e, cause := 1, detA := 2, detB := 3, tb := 4 }
def wEvs (e : Ev) (f : EvSrc → EvSrc) : State := (wUp.updEv e f).updMgmt fun g => { g with occq := [wOcc e] }
def wCfgReq (w : Bool) : CfgReq :=
  { seq := 0, port := 1, tag := 5, write := w, off := 0x200, v := 5, held := false, started := true }
def wAcc (o : BitVec 24) (v : Option Word) : Access := { who := 0x21, org := .inband 2 0, off := o, wr := v }
def wBytes (n : Nat) : List Byte := [0x00, 0x02, 0x00, 0x05, 0x00, 0x00, 0x00].take n
def wLog (f : SilkLog → SilkLog) : State := wUp.updLog f
def wPkt : LogPkt := { type := 1, words := [1, 2, 3, 4, 5] }
def wOpen : OpenPkt :=
  { type := 2, mark := 0, words := [7], trunc := false, openedAt := 40, abandoned := false, attention := false, code := 0 }
def wCmdWord : Word := 0x04205000
def wLoc : Loc := ⟨0, 0, 1, 2, 5, 3⟩
def wEnt (k : RKind) (st : EState) : Entry :=
  { idx := 4, st := st, kind := k, cls := 3, gport := 33, tag := 5, loc := wLoc, data := 9, colAt := 20,
    mask := fullMask false }
def wChan (f : Chan → Chan) : State := wUp.updChan 3 f
def wSt (f : ChanSt → ChanSt) : State := wChan fun c => c.updSt f
def wTt (l : List Entry) : State := wSt fun x => { x with tt := l }
def wResp : Resp :=
  { idx := 4, mod := 2, epoch := 0, port := 1, tag := 5, opc := 1, status := 0, poison := false, dsz := 3, data := 9, cls := 3,
    at_ := 0 }
def wRsv : Rsv := { port := 33, loc := wLoc, twin := false, at_ := 7, prot := true }
def wErr (p : Nat) : SymErr := { pos := p, xor := 3 }
def wLb : LbSlot := { line := some wLoc, valid := true, data := 0x500 }
def wLbe (e : Entry) : State :=
  wSt fun x => { x with tt := [{ e with st := .lb, lb := 2 }], lb := upd x.lb 2 fun _ => wLb, rsv := [wRsv] }
def wBank (f : BankSt → BankSt) : State := wChan fun c => c.updBank 9 f
def wGate : GateList := { len := 2, en := true, cycle := 1000, dur := Vector.replicate 16 100 }
def wEntLb (k : RKind) : Entry := { wEnt k .lb with lb := 2 }
def wNext (i : Instr) (s : State) : State :=
  match exec i s with
  | .next t => t
  | .fault _ => s
  | .refused _ => s
def wTag3 : TagRec := { wTag with tag := 3, kind := .wr64 }
def wTagIx : TagRec := { wTag with ch := some 3, idx := some 4 }
def wRqOf (k : RKind) : Rq := { wRq with kind := k }
def wTrip : State := wSt fun x => { x with tt := [wEnt .rd64 .wait], tripHold := true }
def wIss (op : Zci) (t : Nat) : Issued := { op := op, at_ := t, loc := wLoc, tim := {} }
/-- An engine with a read that waits: its bank closed, open at the read's row, and open at another row. -/
def wActs : State := wSt fun x => { x with tt := [wEnt .rd64 .wait], hist := [wIss .act 100, wIss .pre 200] }
def wOpenAt (r : BitVec 14) (st : EState) : State := wSt fun x =>
  { x with tt := [wEnt .rd64 st], hist := [wIss .act 100],
           banks := upd x.banks wLoc.bank fun b => { b with row := some r, lastAct := 100 } }
def wCols : State := wOpenAt 5 .hit
def wPres : State := wOpenAt 6 .wait
/-- One entry, its bank open at a row, no command in the history. -/
def wOpenTo (r : BitVec 14) (e : Entry) : State := wSt fun x =>
  { x with tt := [e], banks := upd x.banks wLoc.bank fun b => { b with row := some r, lastAct := 100 } }
def wClk : State := wUp.updClk fun k => { k with pllLock := true }
def wCh (f : Chan → Chan) : State := (wUp.updClk fun k => { k with pllLock := true }).updChan 3 f
/-- Pseudo-channel 0 of as many channels from 10 on closes for a pause. -/
def wOff (k : Nat) : State :=
  (List.range k).foldl (fun s i => s.updChan (Fin.ofNat 64 (10 + i)) fun c => c.updPc 0 fun g => { g with pause := .closing }) (wCh id)
/-- A TMP burst in which every copy of the value is good. -/
def wBurst (v : BitVec 8) : BitVec 512 := ((~~~v ++ v).replicate 32).setWidth 512
def wTrk (f : Tracker → Tracker) : State := wCh fun c => c.updTrk 9 f
def wTrkEnt : TrkEnt := { i := 0, row := 5, v := 7, sweep := false, sweepAt := 0, perr := false }
def wPc (f : LaneGroup → LaneGroup) : State := wCh fun c => c.updPc 1 f
def wEye : Eye := { left := 10, right := 40 }
def wCmd (tag : BitVec 2) (w : Word) : FwCmd := { tag := tag, word := w, running := false }
/-- Firmware has taken this command from MB3. -/
def wTaken (w : Word) : State := wMb 3 fun b => { b with cmds := [wCmd 1 w] }
def wRep (hard : Bool) : Repair :=
  { hard := hard, loc := wLoc, phase := 7, nextRd := 16, done := 16, startAt := 50, buf := [], by_ := none }
def wFill : Entry := { wEnt .mwr .sram with purpose := .remapFill 2, maint := true }
def wPw (f : Power → Power) : State := (wUp.updClk fun k => { k with pllLock := true, refclkOk := true }).updPwr f
def wFwPw (f : Power → Power) : State := (wPw f).updFw fun x => { x with st := .ready }
def wBoot (f : Boot → Boot) : State := wUp.updBoot f
def wRep0 : BootReport := { mgmtPass := 3, retrain := 0, lanes := [], t7bad := 0, dies := [] }
/-- A command word of in-band port 33 with tag 1: opcode, argument. -/
def wWord (op : BitVec 7) (arg : BitVec 12) : Word := (0x21 : BitVec 11) ++ op ++ (1 : BitVec 2) ++ arg
/-- Firmware has taken it from MB3, whose window holds these fields (offset, bytes, value). -/
def wAsk (op : BitVec 7) (arg : BitVec 12) (l : List (Nat × Nat × Nat)) : State :=
  wMb 3 fun b => { b with cmds := [wCmd 1 (wWord op arg)], win := fieldsPut [] (wWord op arg) l }
def wStage (l : List (Nat × Nat × Nat)) : State :=
  ((wUp.updFw fun f => { f with st := .rom }).updBoot fun b => { b with stageOpen := true }).updMb 0 fun b =>
    { b with win := fieldsPut [] 0 l }
def wPort (f : Fuses → Fuses) : State := wUp.updFuse fun x => f { x with req := true }
/-- Fuses whose locks and Merrov digest let the factory be closed. -/
def wClose : Fuses :=
  { factory := true, locked := 0x2F, ackHigh := true, words := (List.range 12).map fun i => (738 + i, fuseWord 7),
    shadows := (List.range 12).map fun i => (4, i, 7) }
def wFc : FuseCmd :=
  { by_ := some (3, 1), op := 0x5A, region := 0, off := 0, count := 4, done := 2, base := 0, margin := false, vals := [],
    stage := 1, progs := [(2, 7)] }

/-- The same for the arrival of a legal message. -/
theorem arrives_of {s : State} {m : Sys2Proof.Mod} {x : Msg} (legal : Legal x)
    (h : ((s.hlm.get m).link = .active) ∧
      ((s.hlm.get m).flit.inbox = []) ∧
      (s.pwr.abortable = false) ∧
      ((s.hlm.get m).creditAvail (reqKind x.opc).credit = true) ∧
      ((s.hlm.get m).hasTag x.hdr = false) ∧
      ((s.hlm.get m).fieldCheck (reqKind x.opc) x.hdr = none)) : Arrives s m x := by
  obtain ⟨link, first, awake, credit, tag, fields⟩ := h
  exact ⟨legal, link, first, awake, credit, tag, fields⟩

/-- What must hold for an engine to be alone with an entry, as one proposition that can be decided. -/
theorem alone_of {s : State} {n : Ch} {e : Entry}
    (h : (s.engineRuns n = true) ∧
      (s.map.isJoined n = false) ∧
      ((s.chan.get n).st.tt = [e]) ∧
      (e.kind ≠ .hint ∧ e.maint = false ∧ e.waits = true) ∧
      ((s.chan.get n).st.hist = [] ∧ (s.chan.get n).st.rowAt = none ∧ (s.chan.get n).st.colAt = none) ∧
      (∀ i, ((s.chan.get n).st.lb.get i).line = none) ∧
      ((s.chan.get n).st.respq = [] ∧ (s.chan.get n).st.respqF = []) ∧
      ((s.chan.get n).gate.force.en = false) ∧
      (∀ p, ((s.chan.get n).pc.get p).pause = .none ∧ ((s.chan.get n).pc.get p).requal = none) ∧
      ((s.chan.get n).repair = none) ∧
      ((s.chan.get n).init = none ∧ ∀ j ∈ s.mgmt.fw.remapJobs, s.map.server j.n = n → j.waits = false) ∧
      ((s.chan.get n).rf.trf = [] ∧ (s.chan.get n).rf.tmpDue = []) ∧
      (∀ b, (s.chan.get n).rf.debt.get b ≤ 0) ∧
      (∀ b, ((s.chan.get n).trk b).drain = false) ∧
      (∀ p, (s.chan.get n).st.modeAt.get p = none) ∧
      ((s.chan.get n).st.cap = 64) ∧
      ((s.chan.get n).st.tripHold = false)) : Alone s n e := by
  obtain ⟨runs, solo, only, request, buses, slots, answers, gate, pauses, repair, feeds, dues, debts, drains, modes, cap, trip⟩ := h
  exact ⟨runs, solo, only, request, buses, slots, answers, gate, pauses, repair, feeds, dues, debts, drains, modes, cap, trip⟩

/-- The conditions under which slots are taken, as one proposition that can be decided. -/
theorem takesSlot_of {s : State} {n : Ch}
    (h : (s.chan.get n).cfg.recalEn = true ∧ s.pwr.inImago = true ∧ s.clk.pllLock = true ∧ s.map.isFollower n = false ∧
      s.map.mapped.getLsbD n.val = true ∧ s.map.hole.getLsbD n.val = false ∧ (s.chan.get n).inReset = false ∧
      (s.chan.get n).st.pwr = .active) : TakesSlot s n := by
  obtain ⟨en, awake, lock, leads, mapped, serves, free, dies⟩ := h
  exact ⟨en, awake, lock, leads, mapped, serves, free, dies⟩

/-- A word made from data that are not 0 can be used, whatever its check bits are. -/
theorem fuseWord_used : (fuseDecode (fuseWord 7)).isSome = true ∧ (fuseWord 7 != 0) = true := by
  have h : fuseWord 7 = Config.fuseCheck 7 ++ (7 : Word) := if_neg (by decide)
  have low : (fuseWord 7).extractLsb' 0 32 = 7 := by rw [h]; exact BitVec.extractLsb'_append_eq_right
  have high : (fuseWord 7).extractLsb' 32 7 = Config.fuseCheck 7 := by rw [h]; exact BitVec.extractLsb'_append_eq_left
  have clean : fuseClean (fuseWord 7) = true := by
    unfold fuseClean
    rw [low, high, beq_self_eq_true, Bool.or_true]
  refine ⟨by unfold fuseDecode; rw [if_pos clean]; rfl, bne_iff_ne.mpr fun z => ?_⟩
  rw [z] at low
  exact absurd low (by decide)

/-- The digest of the closed factory state is there. -/
theorem wClose_mayClose : wClose.mayClose = true := by
  have all : (List.range 12).map (fun i => (wClose.raw (fuseBase 4 + i), wClose.unusable.contains (fuseBase 4 + i))) =
      List.replicate 12 (fuseWord 7, false) := rfl
  have raw : ∀ i ∈ List.range 12,
      (wClose.raw (fuseBase 4 + i), wClose.unusable.contains (fuseBase 4 + i)) = (fuseWord 7, false) := fun i hi =>
    List.eq_of_mem_replicate (all ▸ List.mem_map_of_mem hi)
  refine Bool.and_eq_true_iff.mpr ⟨by decide +kernel, List.all_eq_true.mpr fun i hi => ?_⟩
  have ⟨held, usable⟩ := Prod.mk.inj (raw i hi)
  simp only [held, usable, fuseWord_used.1, fuseWord_used.2, Bool.not_false, Bool.and_self]

/-! ## Well-formed terms: for every check an operand that it refuses, and one that passes -/

theorem test_wf_errs : (Instr.readDataDecode 0 0 [⟨0, 1⟩, ⟨143, 0xFF⟩]).wf = true := by decide
theorem test_wf_err_position : (Instr.readDataDecode 0 0 [⟨144, 1⟩]).wf = false := by decide
theorem test_wf_err_value : (Instr.readDataDecode 0 0 [⟨3, 0⟩]).wf = false := by decide
theorem test_wf_err_twice : (Instr.readDataDecode 0 0 [⟨3, 1⟩, ⟨3, 2⟩]).wf = false := by decide
theorem test_wf_lane : (Instr.pauseMeasurementDone 0 0 [⟨37, [some ⟨0, 63⟩], [], []⟩] [⟨19, [none], [], []⟩]).wf = true := by decide
theorem test_wf_lane_number : (Instr.pauseMeasurementDone 0 0 [⟨38, [], [], []⟩] []).wf = false := by decide
theorem test_wf_command_lane : (Instr.pauseMeasurementDone 0 0 [] [⟨20, [], [], []⟩]).wf = false := by decide
theorem test_wf_eye_order : (Instr.pauseMeasurementDone 0 0 [⟨0, [some ⟨9, 8⟩], [], []⟩] []).wf = false := by decide
theorem test_wf_eye_tap : (Instr.pauseMeasurementDone 0 0 [⟨0, [], [some ⟨9, 64⟩], []⟩] []).wf = false := by decide
theorem test_wf_eyes : (Instr.pauseMeasurementDone 0 0 [⟨0, [], [], [none, none, none, none]⟩] []).wf = false := by decide
theorem test_wf_row : (Instr.scrubPaceTick 0 ⟨0, 0, 0, 0, 12287, 0⟩).wf = true := by decide
theorem test_wf_row_range : (Instr.scrubPaceTick 0 ⟨0, 0, 0, 0, 12288, 0⟩).wf = false := by decide
theorem test_wf_declared : (Instr.fwLogPacket (.openPkt false 0 255)).wf = true := by decide
theorem test_wf_declared_none : (Instr.fwLogPacket (.openPkt false 0 0)).wf = false := by decide
theorem test_wf_declared_long : (Instr.fwLogPacket (.openPkt false 0 256)).wf = false := by decide
theorem test_wf_boot : (Instr.bootStepComplete
    ⟨3, 0, [⟨0, some 0, ⟨37, List.replicate 9 none, [], []⟩⟩, ⟨0, none, ⟨19, [], [], [none]⟩⟩], 0, [⟨0, 0, [(1, 5), (255, 6)]⟩]⟩).wf = true := by
  decide
theorem test_wf_die_register : (Instr.bootStepComplete ⟨3, 0, [], 0, [⟨0, 0, [(256, 5)]⟩]⟩).wf = false := by decide
theorem test_wf_die_twice : (Instr.bootStepComplete ⟨3, 0, [], 0, [⟨0, 0, [(1, 5), (1, 6)]⟩]⟩).wf = false := by decide
theorem test_wf_boot_lane : (Instr.bootStepComplete ⟨3, 0, [⟨0, some 0, ⟨38, [], [], []⟩⟩], 0, []⟩).wf = false := by decide
theorem test_wf_boot_command_lane : (Instr.warmBootStepComplete ⟨3, 0, [⟨0, none, ⟨20, [], [], []⟩⟩], 0, []⟩).wf = false := by decide
theorem test_wf_boot_eyes : (Instr.bootStepComplete ⟨3, 0, [⟨0, some 0, ⟨3, List.replicate 10 none, [], []⟩⟩], 0, []⟩).wf = false := by
  decide
theorem test_wf_trip_check : (Instr.tripCheck [⟨0, 1, 0⟩, ⟨1, 0, 0⟩]).wf = true := by decide
theorem test_wf_trip_check_twice : (Instr.tripCheck [⟨0, 1, 0⟩, ⟨0, 1, 5⟩]).wf = false := by decide
theorem test_wf_eyespot : (Instr.eyespotVisitEnd (Vector.replicate 64 0) [⟨0, 1, 0⟩, ⟨0, 2, 5⟩]).wf = true := by decide
theorem test_wf_eyespot_tmp : (Instr.eyespotVisitEnd (Vector.replicate 64 0) [⟨0, 1, 0⟩, ⟨0, 1, 5⟩]).wf = false := by decide
theorem test_wf_i3c : (Instr.i3cRegisterWrite 0 [0, 0, 0, 0, 0, 0, 0, 0]).wf = true := by decide
theorem test_wf_i3c_write : (Instr.i3cRegisterWrite 0 [0, 0, 0, 0, 0, 0, 0, 0, 0]).wf = false := by decide
theorem test_wf_i3c_read : (Instr.i3cRegisterRead 0 [0, 0, 0, 0, 0, 0, 0, 0, 0]).wf = false := by decide

/-! ## The address map: the examples of chapter 03 -/

/-- 16 dies of 32 Gb, every channel, the reset map. -/
def wFull : Map := { mapped := BitVec.allOnes 64, nsid := 4, density := 1 }
/-- 8 dies of 48 Gb, 64 B granule, no CH5, pair 0 joined. -/
def wFold : Map := { mapped := BitVec.allOnes 64 ^^^ 0x20, nsid := 2, density := 2, gran := 0, joined := 1 }

theorem test_map_full : (wFull.decode 0x0A5C3D91C0).chan = 61 ∧ (wFull.decode 0x0A5C3D91C0).loc = ⟨0, 2, 0, 1, 4833, 15⟩ := by
  decide +kernel
theorem test_map_atomic_word : (wFull.decode 0x55808).chan = 12 := by decide +kernel
theorem test_map_fold : (wFold.decode 0xAB68A9440).chan = 37 ∧ (wFold.decode 0xAB68A9440).loc = ⟨1, 1, 3, 1, 10000, 9⟩ := by
  decide +kernel
theorem test_map_fold_capacity : (wFold.decode 0xBD0000000).status = 1 ∧ (wFold.decode 0xBCFFFFFFF).status ≠ 1 := by
  decide +kernel

/-! ## The policer: the example of chapter 05 -/

def wContract : Port :=
  { en := true, force := { cir := 625, pir := 1250, cbs := 4096, pbs := 8192 }, tokC := 4096000, tokP := 8192000 }
/-- `n` requests of 80 bytes, one after the other. -/
def wRun : Nat → Port → Port
  | 0, p => p
  | n + 1, p => wRun n (p.police 80000).2

theorem test_police_green : ((wRun 51 wContract).green, (wRun 51 wContract).yellow, (wRun 51 wContract).red) = (51, 0, 0) := by
  decide +kernel
theorem test_police_period : ((wRun 64 wContract).yellow, (wRun 64 wContract).tokC, (wRun 64 wContract).tokP) =
    (13, 16000, 3072000) := by decide +kernel

/-! ## One step of some commands -/

/-- What a step gives, read in one place. -/
def wAfter {α : Type} (i : Instr) (s : State) (f : State → α) : α := f (wNext i s)

/-- SEM7 (chapter 11): the first reader gets 0 and owns it, the next reads the owner, who frees it. -/
theorem test_sem_free : wAfter (.semRead 0x210 7) wUp (fun t => (t.mgmt.lastAcc, t.mgmt.sem.get 7)) =
    (.ok 0, some 0x210) := by decide +kernel
theorem test_sem_held : wAfter (.semRead 0x0A5 7) (wNext (.semRead 0x210 7) wUp) (fun t => t.mgmt.lastAcc) = .ok 0xA10 := by
  decide +kernel
theorem test_sem_release : wAfter (.semWrite 0x210 7 0xA10) (wNext (.semRead 0x210 7) wUp) (fun t => t.mgmt.sem.get 7) =
    none := by decide +kernel
/-- An alias write clears xor_bank alone, and is refused once the map is frozen (chapter 13). -/
theorem test_alias : wAfter (.aliasWrite 0x21 0x804010 0) wUp (fun t => (t.map.xorBank, t.map.xorCh, t.map.gran)) =
    (false, true, 1) := by decide +kernel
theorem test_alias_frozen : wAfter (.aliasWrite 0x21 0x804010 0) (wUp.updMap fun q => { q with frozen := true })
    (fun t => (t.map.xorBank, t.mgmt.lastAcc)) = (true, .err errDENIED) := by decide +kernel
/-- P40 writes MB3: the stamp is 0x028, whatever the sender wrote (chapters 11, 12). -/
theorem test_mailbox_stamp : wAfter (.mailboxInboundWrite 0x28 3 0x000A2080)
    (wUp.updMb 3 fun b => { b with owner := some 0x28 }) (fun t => (t.mb 3).inw) = 0x050A2080 := by decide +kernel
/-- The second posted write of TSV22_LANE_IDX is discarded and counted (chapter 13). -/
theorem test_posted : wAfter (.registerWrite 0xA5 (.off 0x358008) 5) (wNext (.registerWrite 0xA5 (.off 0x358008) 0x51) wUp)
    (fun t => ((t.mgmt.postTsv.get 22).pend, (t.mgmt.postTsv.get 22).disc)) = (some (0x358008, 0x51), 1) := by decide +kernel
theorem test_posted_effect : wAfter (.postedWriteEffect (.tsv 22)) (wNext (.registerWrite 0xA5 (.off 0x358008) 0x51) wUp)
    (fun t => ((t.chan.get 22).laneIdx, (t.mgmt.postTsv.get 22).pend)) = (0x51, none) := by decide +kernel
/-- A RD64 takes a read credit and waits in the ingress queue (R77, R87). -/
theorem test_rd64 : wAfter (.rd64 2 wHdr) wUp (fun t => ((t.hlm.get 2).crRead, (t.hlm.get 2).ingress.length)) = (511, 1) := by
  decide +kernel
/-- A misaligned RD64 is refused with MISALIGN and the low address bits (R77, R80). -/
theorem test_misaligned : wAfter (.rd64 2 wHdrU) wUp (fun t => (t.hlm.get 2).txq.map fun o => (o.opc, o.status, o.aux)) =
    [(opERROR, errMISALIGN, 1)] := by decide +kernel
/-- AMO.SMIN of 8 bytes compares as signed numbers, AMO.UMIN as unsigned ones (R202). -/
theorem test_amo_signed : amoResult 5 (5 : BitVec 64) (BitVec.allOnes 64) 0 = some (BitVec.allOnes 64) ∧
    amoResult 7 (5 : BitVec 64) (BitVec.allOnes 64) 0 = some 5 := by decide +kernel
/-- gh_pwrgood_i rising starts the cold boot at B1 (R431); its fall holds everything in reset (R433). -/
theorem test_cold_boot : wAfter .pwrgoodRise State.reset (fun t => t.boot.ph) = .cold 1 := by decide +kernel
theorem test_power_fail : wAfter .pwrgoodFall wUp (fun t => (t.boot.ph, t.map.mapped)) = (.off, 0) := by decide +kernel
/-- On an empty queue one CC passes; no word spells a command, so none is put in front. -/
theorem test_idle : (match step wClk with | .next t => t.clk.timeBase | _ => 0) = 1 := by decide +kernel
theorem test_no_word : decodeTableWord 32 0 = none := by decide

/-! ## The CRC of the flits used here, 62 bytes at a time -/

/-- From the CRC of the four quarters of a body that ends within its first quarter. -/
theorem crc_of {v a b c d : Nat} (hv : v / 256 ^ 62 = 0) (h0 : crcBytes (2 ^ 64 - 1) v 62 = a) (h1 : crcBytes a 0 62 = b)
    (h2 : crcBytes b 0 62 = c) (h3 : crcBytes c 0 62 = d) : flitCrc v = d ^^^ (2 ^ 64 - 1) := by
  have e : crcBytes (2 ^ 64 - 1) v (62 + (62 + (62 + 62))) = d := by
    rw [crcBytes_add, hv, h0, crcBytes_add, Nat.zero_div, h1, crcBytes_add, Nat.zero_div, h2, h3]
  unfold flitCrc
  rw [show (248 : Nat) = 62 + (62 + (62 + 62)) from rfl, e]
theorem crc_1_0 : crcBytes (2 ^ 64 - 1) 0x2000001007000 62 = 767877556462240380 := by decide +kernel
theorem crc_1_1 : crcBytes 767877556462240380 0 62 = 2438942967452790505 := by decide +kernel
theorem crc_1_2 : crcBytes 2438942967452790505 0 62 = 12448662611319119906 := by decide +kernel
theorem crc_1_3 : crcBytes 12448662611319119906 0 62 = 15421623330556512176 := by decide +kernel
theorem crc_1 : flitCrc 0x2000001007000 = 15421623330556512176 ^^^ (2 ^ 64 - 1) :=
  crc_of (by decide +kernel) crc_1_0 crc_1_1 crc_1_2 crc_1_3
theorem wFlit_crc_1 : flitCrcOk (wFlit 1) = true := by
  unfold flitCrcOk
  have h : (wFlit 1).toNat % 2 ^ 1984 = 0x2000001007000 := by decide +kernel
  rw [h, crc_1]
  decide +kernel
theorem crc_2_0 : crcBytes (2 ^ 64 - 1) 0x2000002007000 62 = 14608347031485668363 := by decide +kernel
theorem crc_2_1 : crcBytes 14608347031485668363 0 62 = 3425365572664276627 := by decide +kernel
theorem crc_2_2 : crcBytes 3425365572664276627 0 62 = 12689177709515908391 := by decide +kernel
theorem crc_2_3 : crcBytes 12689177709515908391 0 62 = 201480994661834082 := by decide +kernel
theorem crc_2 : flitCrc 0x2000002007000 = 201480994661834082 ^^^ (2 ^ 64 - 1) :=
  crc_of (by decide +kernel) crc_2_0 crc_2_1 crc_2_2 crc_2_3
theorem wFlit_crc_2 : flitCrcOk (wFlit 2) = true := by
  unfold flitCrcOk
  have h : (wFlit 2).toNat % 2 ^ 1984 = 0x2000002007000 := by decide +kernel
  rw [h, crc_2]
  decide +kernel
theorem crc_3_0 : crcBytes (2 ^ 64 - 1) 0x2000003007000 62 = 5411674160359556183 := by decide +kernel
theorem crc_3_1 : crcBytes 5411674160359556183 0 62 = 3046172816856416581 := by decide +kernel
theorem crc_3_2 : crcBytes 3046172816856416581 0 62 = 13524174617848342052 := by decide +kernel
theorem crc_3_3 : crcBytes 13524174617848342052 0 62 = 10313627485027006813 := by decide +kernel
theorem crc_3 : flitCrc 0x2000003007000 = 10313627485027006813 ^^^ (2 ^ 64 - 1) :=
  crc_of (by decide +kernel) crc_3_0 crc_3_1 crc_3_2 crc_3_3
theorem wFlit_crc_3 : flitCrcOk (wFlit 3) = true := by
  unfold flitCrcOk
  have h : (wFlit 3).toNat % 2 ^ 1984 = 0x2000003007000 := by decide +kernel
  rw [h, crc_3]
  decide +kernel
theorem crc_0_0 : crcBytes (2 ^ 64 - 1) 0x0 62 = 14586728332071357 := by decide +kernel
theorem crc_0_1 : crcBytes 14586728332071357 0 62 = 7456572121818650051 := by decide +kernel
theorem crc_0_2 : crcBytes 7456572121818650051 0 62 = 13241838303391363258 := by decide +kernel
theorem crc_0_3 : crcBytes 13241838303391363258 0 62 = 3088559427994792658 := by decide +kernel
theorem crc_0 : flitCrc 0x0 = 3088559427994792658 ^^^ (2 ^ 64 - 1) :=
  crc_of (by decide +kernel) crc_0_0 crc_0_1 crc_0_2 crc_0_3
theorem zero_crc : flitCrcOk (0 : BitVec 2048) = false := by
  unfold flitCrcOk
  have h : (0 : BitVec 2048).toNat % 2 ^ 1984 = 0x0 := by decide +kernel
  rw [h, crc_0]
  decide +kernel

theorem crc_n1_0 : crcBytes (2 ^ 64 - 1) 0x6000001007000 62 = 12298729610296192757 := by decide +kernel
theorem crc_n1_1 : crcBytes 12298729610296192757 0 62 = 7424092478185470955 := by decide +kernel
theorem crc_n1_2 : crcBytes 7424092478185470955 0 62 = 4523901517509246212 := by decide +kernel
theorem crc_n1_3 : crcBytes 4523901517509246212 0 62 = 761732630049942448 := by decide +kernel
theorem crc_n1 : flitCrc 0x6000001007000 = 761732630049942448 ^^^ (2 ^ 64 - 1) :=
  crc_of (by decide +kernel) crc_n1_0 crc_n1_1 crc_n1_2 crc_n1_3
theorem wFlitNak_crc_1 : flitCrcOk (wFlitNak 1) = true := by
  unfold flitCrcOk
  have h : (wFlitNak 1).toNat % 2 ^ 1984 = 0x6000001007000 := by decide +kernel
  rw [h, crc_n1]
  decide +kernel
theorem crc_n2_0 : crcBytes (2 ^ 64 - 1) 0x6000002007000 62 = 7691752068560777346 := by decide +kernel
theorem crc_n2_1 : crcBytes 7691752068560777346 0 62 = 7590296715430765457 := by decide +kernel
theorem crc_n2_2 : crcBytes 7590296715430765457 0 62 = 2455494391916263425 := by decide +kernel
theorem crc_n2_3 : crcBytes 2455494391916263425 0 62 = 16023075857065996642 := by decide +kernel
theorem crc_n2 : flitCrc 0x6000002007000 = 16023075857065996642 ^^^ (2 ^ 64 - 1) :=
  crc_of (by decide +kernel) crc_n2_0 crc_n2_1 crc_n2_2 crc_n2_3
theorem wFlitNak_crc_2 : flitCrcOk (wFlitNak 2) = true := by
  unfold flitCrcOk
  have h : (wFlitNak 2).toNat % 2 ^ 1984 = 0x6000002007000 := by decide +kernel
  rw [h, crc_n2]
  decide +kernel

/-! ## States that the witnesses use -/

def wS1 : State := wUp.updMap fun q => { q with joined := BitVec.allOnes 32 }
def wS2 : State := wHlm fun h => { h with posted := [wRq], seq := 1 }
def wS3 : State := wHlm fun h => { h with crRead := 0 }
def wS4 : State := wHlm fun h => { h with crRead := 0, tags := [wTag] }
def wS5 : State := wHlm fun h => { h with tags := [wTag] }
def wS6 : State := wUp.updPort 33 fun p => { p with en := true, tokP := 0 }
def wS7 : State := wHlm fun h => { h with fences := [wFence] }
def wS8 : State := wHlm fun h => { h with flit := { h.flit with replay := [wTx 1] } }
def wS9 : State := wHlm fun h => { h with flit := { h.flit with rxNext := 3, replay := [wTx 1] } }
def wS10 : State := wHlm fun h => { h with flit := { h.flit with rxNext := 0xFF0, replay := [wTx 1] } }
def wS11 : State := wHlm fun h => { h with flit := { h.flit with replay := [wTx 1, wTxAt 1] } }
def wS12 : State := wHlm fun h => { h with flit := { h.flit with replay := [wTx 1, wTxAt 8] } }
def wS13 : State := wHlm fun h => { h with dueRead := 70 }
def wS14 : State := wHlm fun h => { h with tags := [wTag], txq := [{ outMsg 1 1 5 with dsz := 3, data := 99, credit := .read }] }
def wS15 : State := wHlm fun h => { h with flitAt := some 5, rate16 := true }
def wS16 : State := wHlm fun h => { h with flit := { h.flit with replay := [wTx 1], replayAt := some 7 } }
def wS17 : State := wHlm fun h => { h with flit := { h.flit with replay := [wTx 8] } }
def wS18 : State := wHlm fun h => { h with flit := { h.flit with nakSentAt := some 44 } }
def wS19 : State := wHlm fun h => { h with retryWin := some wWin }
def wS20 : State := wHlm fun h => { h with policeWin := some wWin }
def wS21 : State := wUp.updChan 2 fun c => c.updSt fun x => { x with ceWindow := some wWin }
def wS22 : State := wHlm fun h => { h with flit := { h.flit with inbox := [reqMsg 1 wHdr 0] }, tags := [wTag] }
def wS23 : State := wLk fun h => { h with link := .reset, drained := false, maxRate := 1 }
def wS24 : State := wLk fun h => { h with link := .training }
def wS25 : State := wLk fun h => { h with link := .training, trainAt16 := true }
def wS26 : State := wLk fun h => { h with link := .down }
def wS27 : State := wHlm fun h => { h with cfgq := [wCfgReq false] }
def wS28 : State := wHlm fun h => { h with cfgq := [wCfgReq true] }
def wS29 : State := wUp.updChan 3 fun c => c.updSt fun x => { x with hwm := Vector.replicate 16 { depth := 3, lat := 4 } }
def wS30 : State := wUp.updChan 3 fun c => { c with gate := { c.gate with force := { c.gate.force with en := true } } }
def wS31 : State := wUp.updMap fun q => { q with frozen := true }
def wS32 : State := wOn.updMgmt fun g => { g with sem := upd g.sem 3 fun _ => some 5 }
def wS33 : State := wUp.updPwr fun p => { p with dom := upd p.dom (quadDom 0) fun _ => 0 }
def wS34 : State := wBoot fun b => { b with ph := .cold 11 }
def wS35 : State := wUp.updChan 3 fun c => c.updPc 1 fun g => { g with spares := upd g.spares 0 fun x => { x with failed := true } }
def wS36 : State := wPc fun g => { g with marks := 0x30 }
def wS37 : State := wPc fun g => { g with marks := 0x30, lanes := upd g.lanes 4 fun l => { l with goodPauses := 9 } }
def wS38 : State := wUp.updChan 3 fun c => c.updSt fun x => { x with pwr := .powerDown }
def wS39 : State := wUp.updChan 3 fun c => { c with repair := some (wRep false) }
def wS40 : State := wUp.updPwr fun p => { p with dom := upd p.dom 30 fun _ => 0 }
def wS41 : State := wUp.updFuse fun f => { f with shadows := [(1, 9, 3), (0, 9, 3)] }
def wS42 : State := wMgmt fun g => { g with postAon := { g.postAon with pend := some (0x10008, 9) } }
def wS43 : State := wMgmt fun g => { g with postTsv := upd g.postTsv 3 fun p => { p with pend := some (0x30C008, 9) } }
def wS44 : State := wEvs 9 fun x => { x with msgEn := true, module := 2, port := 4, occ := 7, ack := 5 }
def wS45 : State := wEvs 9 fun x => { x with occ := 4, ack := 5 }
def wS46 : State := wEvs 300 fun x => { x with occ := 4, ack := 3 }
def wS47 : State := wEvs 9 fun x => { x with occ := 7, ack := 5 }
def wS48 : State := wEvs 9 fun x => { x with msgEn := true, module := 2, holdoff := 3, lastMsg := some (50, 7), occ := 7 }
def wS49 : State := wEvs 9 fun x => { x with msgEn := true, module := 2, holdoff := 3, lastMsg := some (50, 6), occ := 7 }
def wS50 : State := wUp.updI3c 1 fun x => { x with ibi := some 4 }
def wS51 : State := wUp.updI3c 1 fun x => { x with busy := true }
def wS52 : State := wUp.updI3c 1 fun x => { x with ready := some (0x200, 9) }
def wS53 : State := wLog fun l => { l with hq := [wPkt], gap := true }
def wS54 : State := wLog fun l => { l with hq := [wPkt], fill := List.replicate 2045 1 }
def wS55 : State := wLog fun l => { l with openPkt := some wOpen }
def wS56 : State := wLog fun l => { l with firstClosed := some 77 }
def wS57 : State := wLog fun l => { l with fill := [1, 2], swapDue := true, drops := 3 }
def wS58 : State := wLog fun l => { l with drain := [4, 5] }
def wS59 : State := wLog fun l => { l with drain := [4, 5], openPkt := some wOpen }
def wS60 : State := wMb 2 fun b => { b with inw := 99 }
def wS61 : State := wMb 2 fun b => { b with inFull := true }
def wS62 : State := wMb 2 fun b => { b with inw := wCmdWord, inFull := true }
def wS63 : State := wMb 2 fun b => { b with answers := [{ opcode := 1, tag := 2, status := 0, result := 3 }] }
def wS64 : State := wMb 2 fun b => { b with outFull := true, out := wCmdWord, posted := [1] }
def wS65 : State := wMb 2 fun b => { b with winFw := true, waiting := [{ who := 0x21, org := .direct, off := 0x42010, wr := some 0x01020304 }] }
def wS66 : State := wMb 2 fun b => { b with winFw := true, holdAt := 10, waiting := [{ who := 0x21, org := .direct, off := 0x42010, wr := some 0x01020304 }] }
def wS67 : State := wUp.updMgmt fun g => { g with sem := upd g.sem 3 fun _ => some 0x21 }
def wS68 : State := wHlm fun h => { h with posted := [wRq], tags := [wTag3], seq := 1 }
def wS69 : State := wHlm fun h => { h with ingress := [(wRqOf .rd64)], seq := 1 }
def wS70 : State := wHlm fun h => { h with ingress := [(wRqOf .ldr)], seq := 1 }
def wS71 : State := wHlm fun h => { h with ingress := [(wRqOf .stc)], seq := 1 }
def wS72 : State := wHlm fun h => { h with ingress := [(wRqOf .rd64)], tags := [{ wTag3 with kind := .rd64 }], seq := 1 }
def wS73 : State := wHlm fun h => { h with ingress := [(wRqOf .hint)], seq := 1 }
def wS74 : State := wSt fun x => { x with tt := [wEnt .rd64 .resp], respq := [wResp] }
def wS75 : State := wSt fun x => { x with tt := [wEnt .rd64 .resp], respq := [{ wResp with epoch := 7 }] }
def wS76 : State := wSt fun x => { x with tt := [wEnt .wr64 .colwr], rsv := [wRsv] }
def wS77 : State := wChan fun c => { c.updSt fun x => { x with tt := [wEnt .wr64 .sram] } with remap := upd c.remap 0 fun _ => { st := .live, loc := wLoc } }
def wS78 : State := wChan fun c => { c.updSt fun x => { x with tt := [wEnt .amo .sram] } with remap := upd c.remap 0 fun _ => { st := .live, loc := wLoc, data := 0x500 } }
def wS79 : State := wSt fun x => { x with lb := upd x.lb 2 fun _ => { wLb with dirty := true } }
def wS80 : State := wBank fun b => { b with row := some 5, timerAt := 30 }
def wS81 : State := wSt fun x => { x with rsv := [wRsv] }
def wS82 : State := wChan fun c => c.updPc 0 fun g => { g with mon := [(1, 2, 3)] }
def wS83 : State := wClk.updPort 9 fun p => { p with tokC := 0, applyPend := true, chgMode := 1 }
def wS84 : State := wClk.updPort 9 fun p => { p with tokC := 0, applyPend := true, chgMode := 2 }
def wS85 : State := wSt fun x => { x with capBus := some 33 }
def wS86 : State := wClk.updChan 3 fun c => { c with gate := { c.gate with force := wGate } }
def wS87 : State := wClk.updChan 3 fun c => { c with gate := { c.gate with force := wGate, commit := some wGate } }
def wS88 : State := wClk.updChan 3 fun c => { c with gate := { c.gate with commit := some wGate } }
def wS89 : State := wClk.updChan 3 fun c => { c with gate := { c.gate with force := wGate, started := true } }
def wS90 : State := wSt fun x => { x with tt := [wEnt .rd64 .colrd], recov := .caerr 5 }
def wS91 : State := wClk.updChan 3 fun c => { c with gate := { c.gate with commit := some wGate, commitAt := (0, 0) } }
def wS92 : State := wUp.updPwr fun p => { p with bySr := true }
def wS93 : State := wHlm fun h => { h with errs := [{ seq := 0, port := 1, tag := 5, code := 3, aux := 7, retire := true }, { seq := 0, port := 2, tag := 5, code := 3, aux := 7, retire := true }] }
def wS94 : State := wHlm fun h => { h with cfgq := [{ wCfgReq true with started := false }] }
def wS95 : State := wCh fun c => c.updRf fun r => { r with debt := upd r.debt 9 fun _ => 3 }
def wS96 : State := wCh fun c => c.updRf fun r => { r with tmpSent := [0] }
def wS97 : State := wCh fun c => c.updRf fun r => { r with tmpSent := [0], direct := Vector.replicate 4 false, fallCnt := Vector.replicate 4 3 }
def wS98 : State := wCh fun c => c.updRf fun r => { r with tmpSent := [0], direct := Vector.replicate 4 false, mTemp := Vector.replicate 4 2 }
def wS99 : State := wCh fun c => c.updRf fun r => { r with tmpSent := [0], direct := Vector.replicate 4 false, fallCnt := Vector.replicate 4 2, mTemp := Vector.replicate 4 1 }
def wS100 : State := wCh fun c => c.updRf fun r => { r with tmpSent := [0], direct := Vector.replicate 4 false, fallCnt := Vector.replicate 4 2, mTemp := Vector.replicate 4 2 }
def wS101 : State := wCh fun c => (c.updRf fun r => { r with tmpSent := [0] }).updSt fun x => { x with hist := [wIss .tmp 100], recov := .caerr 110 }
def wS102 : State := wCh fun c => (c.updSt fun x => { x with pwr := .powerDown }).updRf fun r => { r with burst := Vector.replicate 2 true }
def wS103 : State := wTrk fun t => { t with s := 3, ents := [wTrkEnt, { wTrkEnt with row := 6, v := 2 }, { wTrkEnt with row := 8, sweep := true }] }
def wS104 : State := wTrk fun t => { t with ents := [{ wTrkEnt with sweep := true }], lastSweepDl := some 70 }
def wS105 : State := wTrk fun t => { t with s := 9, drain := true, ents := [wTrkEnt] }
def wS106 : State := wTrk fun t => { t with ents := [wTrkEnt, { wTrkEnt with row := 6 }] }
def wS107 : State := wPc fun g => { g with pause := .measure }
def wS108 : State := wCh fun c => c.updPc 0 fun g => { g with slotFrom := 48000000 }
def wS109 : State := wCh fun c => (c.updPc 1 fun g => { g with pause := .closing }).updSt fun x => { x with tt := [{ wEnt .rd64 .wait with loc := ⟨1, 0, 0, 0, 5, 3⟩ }] }
def wS110 : State := wCh fun c => (c.updPc 1 fun g => { g with pause := .apply, newLanes := some (Vector.replicate 38 { rxTap := 9 }) }).updSt fun x => { x with tt := [{ wEnt .rd64 .hold with loc := ⟨1, 0, 0, 0, 5, 3⟩ }] }
def wS111 : State := wPc fun g => { g with requal := some 4, requalNext := 6144 * 256, marks := 0x30, spares := upd g.spares 0 fun _ => { en := true, lane := 4 } }
def wS112 : State := wCh fun c => { c with caerrTimes := [0] }
def wS113 : State := wSt fun x => { x with recov := .engine 0 }
def wS114 : State := wCh fun c => c.updSt fun x => { x with recov := .caerrWait 40 50, banks := upd x.banks 9 fun b => { b with row := some 5 } }
def wS115 : State := wSt fun x => { x with tt := [wEnt .rd64 .wait], readyAt := some 30, lastCmd := 12 }
def wS116 : State := wSt fun x => { x with recov := .engine 40, tt := [wEnt .rd64 .hit, { wEnt .rd64 .colrd with idx := 5 }], banks := upd x.banks 9 fun b => { b with row := some 5 } }
def wS117 : State := wChan fun c => { c with inReset := true, train := 2 }
def wS118 : State := wChan fun c => { c with share := true }
def wS119 : State := wChan fun c => { c with repair := some (wRep false) }
def wS120 : State := wChan fun c => { c with repair := some (wRep true) }
def wS121 : State := wChan fun c => { c with repair := some { wRep false with phase := 9 } }
def wS122 : State := wChan fun c => { c with repair := some { wRep true with phase := 10 } }
def wS123 : State := wUp.updFw fun f => { f with twinJobs := [{ c := 3, entry := true, by_ := none }] }
def wS124 : State := wSt fun x => { x with tripAt := some 70 }
def wS125 : State := wUp.updPwr fun p => { p with trip := true, tripRun := 1 }
def wS126 : State := wSt fun x => { x with crit := true, critCoolAt := some 70 }
def wS127 : State := wFwPw fun p => { p with target := 2 }
def wS128 : State := wFwPw fun p => { p with target := 1 }
def wS129 : State := wFwPw fun p => { p with target := 2, state := .chrysMgmt }
def wS130 : State := wPw fun p => { p with ph := .defer }
def wS131 : State := wPw fun p => { p with deferAt := 40, stirAt := 30 }
def wS132 : State := wPw fun p => { p with ph := .defer, state := .toPupa, from_ := .imago, target := 1 }
def wS133 : State := wPw fun p => { p with ph := .step 4, state := .toPupa }
def wS134 : State := wPw fun p => { p with ph := .step 5, state := .toPupa }
def wS135 : State := wPw fun p => { p with ph := .step 5, state := .toChrysalis }
def wS136 : State := wPw fun p => { p with ph := .step 6, state := .toPupa }
def wS137 : State := wPw fun p => { p with ph := .step 6, state := .toChrysalis, bySr := true }
def wS138 : State := wPw fun p => { p with ph := .step 4, state := .toChrysalis, bySr := true }
def wS139 : State := wPw fun p => { p with state := .pupa }
def wS140 : State := wPw fun p => { p with state := .chrysMgmt }
def wS141 : State := wPw fun p => { p with state := .chrysalis }
def wS142 : State := wUp.updClk fun k => { k with pllEnabled := true, refclkOk := true }
def wS143 : State := wPw fun p => { p with state := .waking, dom := upd p.dom 5 fun _ => 1 }
def wS144 : State := wPw fun p => { p with state := .waking, dom := upd p.dom 37 fun _ => 0 }
def wS145 : State := wPw fun p => { p with upAt := 40 }
def wS146 : State := wPw fun p => { p with state := .waking, dom := upd p.dom 1 fun _ => 3 }
def wS147 : State := wPw fun p => { p with state := .chrysalis, mgmtWake := true, dom := upd p.dom 1 fun _ => 3 }
def wS148 : State := wPw fun p => { p with state := .chrysalis, eye := { p.eye with inVisit := true } }
def wS149 : State := wPw fun p => { p with state := .chrysalis, eye := { p.eye with inVisit := true, widx := 5, visits := 9 } }
def wS150 : State := wPw fun p => { p with lossSeq := some 1 }
def wS151 : State := wBoot fun b => { b with ph := .cold 6 }
def wS152 : State := wBoot fun b => { b with rstN := false, ph := .warm 1, w1Done := true }
def wS153 : State := wFw fun f => { f with resetAt := some 70 }
def wS154 : State := wBoot fun b => { b with ph := .cold 2, readAt := 24 }
def wS155 : State := wBoot fun b => { b with ph := .cold 2, readAt := 23 }
def wS156 : State := wBoot fun b => { b with ph := .cold 5, readAt := 1048 }
def wS157 : State := wClk.updBoot fun b => { b with ph := .cold 6 }
def wS158 : State := wClk.updBoot fun b => { b with ph := .warm 2 }
def wS159 : State := wClk.updBoot fun b => { b with ph := .warm 6 }
def wS160 : State := wClk.updBoot fun b => { b with ph := .cold 7, stagReq := true, group := 2 }
def wS161 : State := wClk.updBoot fun b => { b with ph := .cold 7, groupRun := true, group := 1 }
def wS162 : State := wClk.updBoot fun b => { b with stagGnt := true }
def wS163 : State := wClk.updBoot fun b => { b with ph := .cold 7, group := 2, stagGnt := true }
def wS164 : State := wClk.updBoot fun b => { b with ph := .cold 7, group := 2, stagReq := true, bistCh := 0xFFFFFF }
def wS165 : State := wClk.updBoot fun b => { b with ph := .cold 7, group := 2, stagReq := true, groupRun := true }
def wS166 : State := wBoot fun b => { b with ph := .cold 10, verifying := true, stream := [1, 2] }
def wS167 : State := wBoot fun b => { b with deliverer := some 0x21, stream := [1, 2] }
def wS168 : State := wPort fun f => { f with want := .prog, addr := 800, wdata := 3, words := [(800, 8), (801, 9)] }
def wS169 : State := wPort fun f => { f with want := .boot, addr := 80 }
def wS170 : State := wPort fun f => { f with want := .boot, addr := 80, first := some (some 0) }
def wS171 : State := wUp.updFuse fun f => { f with ackHigh := true, jobOps := [(800, 3)] }
def wS172 : State := wUp.updFuse fun f => { f with factory := true }
def wS173 : State := wBoot fun b => { b with rstN := false }
def wS174 : State := wBoot fun b => { b with dbgBusy := upd b.dbgBusy 2 fun _ => true }
def wS175 : State := wUp.updFuse fun _ => wClose
def wS176 : State := wUp.updFuse fun _ => { wClose with locked := 0x2E }

/-! ## Witnesses -/

/-- A command waits in the queue. -/
def wQueue : State := { State.reset with pending := [.pwrgoodRise] }

theorem wit_StepRunsFront : ∃ (c : Instr) (rest : List Instr) (s : State), s.pending = c :: rest :=
  ⟨.pwrgoodRise, [], wQueue, rfl⟩

theorem wit_IdleStepTicks : ∃ (s : State), s.pending = [] := ⟨State.reset, rfl⟩

theorem wit_StepKeepsSafe : ∃ (s t : State), Safe s ∧ step s = .next t :=
  ⟨wQueue, wNext .pwrgoodRise State.reset, by unfold Safe; decide, rfl⟩

theorem wit_MappedOnlyByBoot : ∃ (c : Instr) (s t : State), exec c s = .next t ∧ t.map.mapped ≠ s.map.mapped :=
  ⟨.pwrgoodFall, wUp, wNext .pwrgoodFall wUp, rfl, by decide +kernel⟩

/-- A state that holds a shadow of a word of region 0. -/
def wShadow : State := wUp.updFuse fun f => { f with shadows := [(0, 1, 2)] }

theorem wit_ShadowsAreKept : ∃ (c : Instr) (s t : State), exec c s = .next t ∧
    (t.mgmt.fuse.shadows.filter fun x => decide (x.1 ≠ 4 ∧ x.1 ≠ 5)) ≠
      (s.mgmt.fuse.shadows.filter fun x => decide (x.1 ≠ 4 ∧ x.1 ≠ 5)) :=
  ⟨.pwrgoodFall, wShadow, wNext .pwrgoodFall wShadow, rfl, by decide +kernel⟩

/-- States and operands that meet the hypotheses of the clauses of RequestIsQueued. -/
theorem wit_RequestIsQueued :
    (∃ (i : Instr) (m : Sys2Proof.Mod) (x : Msg) (s : State), requestOf i = some (m, x) ∧
      (reqKind x.opc = RKind.rd64 ∨ reqKind x.opc = RKind.rd128 ∨ reqKind x.opc = RKind.ldr) ∧ Arrives s m x ∧
      Passes s m x ∧ (reqKind x.opc = RKind.rd64 → (s.hlm.get m).fenced x.hdr.port = true ∨
      (s.hlm.get m).forwardOf x.hdr.port (s.hlm.get m).seq x.hdr.addr = none)) ∧
    (∃ (i : Instr) (m : Sys2Proof.Mod) (x : Msg) (s : State), requestOf i = some (m, x) ∧ (reqKind x.opc = RKind.stc ∨
      reqKind x.opc = RKind.amo) ∧ Arrives s m x ∧ Passes s m x) ∧
    (∃ (m : Sys2Proof.Mod) (hd : ReqHdr) (s : State), Arrives s m (reqMsg 4 hd 0) ∧ Passes s m (reqMsg 4 hd 0)) ∧
    (∃ (m : Sys2Proof.Mod) (hd : ReqHdr) (w : Rq) (s : State), Arrives s m (reqMsg 1 hd 0) ∧
      Passes s m (reqMsg 1 hd 0) ∧ (s.hlm.get m).fenced hd.port = false ∧
      (List.filter (fun (r : Rq) => r.port == hd.port && decide (r.seq < (s.hlm.get m).seq) && r.addr.toNat / 64 == hd.addr.toNat / 64) (s.hlm.get m).posted).getLast? = some w ∧
      (w.kind = RKind.wr64 ∨ w.mask = BitVec.allOnes 64)) :=
  ⟨⟨(.rd64 2 wHdr), 2, (reqMsg 1 wHdr 0), wUp, by decide +kernel, by decide +kernel, arrives_of (by unfold Legal; decide) (by decide +kernel), ⟨by decide +kernel,
    by decide +kernel⟩, by decide +kernel⟩,
   ⟨(.stc 2 wHdr 9), 2, (reqMsg 0xA wHdr 9), wUp, by decide +kernel, by decide +kernel, arrives_of (by unfold Legal; decide) (by decide +kernel), ⟨by decide +kernel,
     by decide +kernel⟩⟩,
   ⟨2, wHdr, wUp, arrives_of (by unfold Legal; decide) (by decide +kernel), ⟨by decide +kernel, by decide +kernel⟩⟩,
   ⟨2, wHdr, wRq, wS2, arrives_of (by unfold Legal; decide) (by decide +kernel), ⟨by decide +kernel, by decide +kernel⟩, by decide +kernel⟩⟩

/-- States and operands that meet the hypotheses of the clauses of WriteIsPosted. -/
theorem wit_WriteIsPosted :
    (∃ (i : Instr) (m : Sys2Proof.Mod) (x : Msg) (s : State), requestOf i = some (m, x) ∧
      (reqKind x.opc = RKind.wr64 ∨ reqKind x.opc = RKind.wrp) ∧ Arrives s m x ∧ Passes s m x) :=
  ⟨(.wr64 2 wHdr 9), 2, (reqMsg 8 wHdr 9), wUp, by decide +kernel, by decide +kernel, arrives_of (by unfold Legal; decide) (by decide +kernel), ⟨by decide +kernel,
    by decide +kernel⟩⟩

/-- States and operands that meet the hypotheses of the clauses of Refusals. -/
theorem wit_Refusals :
    (∃ (i : Instr) (m : Sys2Proof.Mod) (x : Msg) (s : State), requestOf i = some (m, x) ∧ Legal x ∧
      (s.hlm.get m).link = LinkState.active ∧ (s.hlm.get m).flit.inbox = [] ∧ s.pwr.abortable = false ∧
      (s.hlm.get m).creditAvail (reqKind x.opc).credit = false) ∧
    (∃ (i : Instr) (m : Sys2Proof.Mod) (x : Msg) (s : State), requestOf i = some (m, x) ∧ Legal x ∧
      (s.hlm.get m).link = LinkState.active ∧ (s.hlm.get m).flit.inbox = [] ∧ s.pwr.abortable = false ∧
      (s.hlm.get m).creditAvail (reqKind x.opc).credit = true) ∧
    (∃ (i : Instr) (m : Sys2Proof.Mod) (hd : ReqHdr) (v : Word) (x : Msg) (s : State), (i,
      x) ∈ [(Instr.fenceW m { hdr := hd, bad := true }, reqMsg 32 hd 0), (Instr.fenceAll m { hdr := hd, bad := true }, reqMsg 33 hd 0), (Instr.cfgRd m { hdr := hd, bad := true }, reqMsg 40 hd 0), (Instr.cfgWr m { hdr := hd, bad := true } v, reqMsg 41 hd (BitVec.setWidth 576 v)), (Instr.srEnter m { hdr := hd, bad := true }, reqMsg 62 hd 0)] ∧
      (s.hlm.get m).link = LinkState.active ∧ (s.hlm.get m).flit.inbox = [] ∧ s.pwr.abortable = false ∧
      (s.hlm.get m).creditAvail (reqKind x.opc).credit = true ∧ (s.hlm.get m).hasTag hd = false) ∧
    (∃ (i : Instr) (m : Sys2Proof.Mod) (x : Msg) (s : State), requestOf i = some (m, x) ∧
      (reqKind x.opc).onPath = true ∧ Arrives s m x ∧ (policed s m x).1 = Colour.red) :=
  ⟨⟨(.rd64 2 wHdr), 2, (reqMsg 1 wHdr 0), wS3, by decide +kernel, by unfold Legal; decide +kernel, by decide +kernel⟩,
   ⟨(.rd64 2 wHdr), 2, (reqMsg 1 wHdr 0), wS5, by decide +kernel, by unfold Legal; decide +kernel, by decide +kernel⟩,
   ⟨(.fenceW 2 ⟨wHdr, true⟩), 2, wHdr, 0, (reqMsg 0x20 wHdr 0), wUp, by decide +kernel⟩,
   ⟨(.rd64 2 wHdr), 2, (reqMsg 1 wHdr 0), wS6, by decide +kernel, by decide +kernel, arrives_of (by unfold Legal; decide) (by decide +kernel), by decide +kernel⟩⟩

/-- States and operands that meet the hypotheses of the clauses of PolicerColours. -/
theorem wit_PolicerColours :
    (∃ (p : Port), p.en = false) ∧
    (∃ (p : Port) (l : Nat), p.en = true ∧ p.tokP < max l 1) ∧
    (∃ (p : Port) (l : Nat), p.en = true ∧ max l 1 ≤ p.tokP ∧ p.tokC < max l 1) ∧
    (∃ (p : Port) (l : Nat), p.en = true ∧ max l 1 ≤ p.tokP ∧ max l 1 ≤ p.tokC) :=
  ⟨⟨{}, by decide +kernel⟩,
   ⟨{ en := true, tokP := 5 }, 64000, by decide +kernel⟩,
   ⟨{ en := true, tokC := 5 }, 64000, by decide +kernel⟩,
   ⟨{ en := true }, 64000, by decide +kernel⟩⟩

/-- States and operands that meet the hypotheses of the clauses of Fences. -/
theorem wit_Fences :
    (∃ (i : Instr) (m : Sys2Proof.Mod) (x : Msg) (s : State), requestOf i = some (m, x) ∧
      (reqKind x.opc = RKind.fenceW ∨ reqKind x.opc = RKind.fenceAll) ∧ Arrives s m x) ∧
    (∃ (m : Sys2Proof.Mod) (p : BitVec 4) (f : Fence) (s : State),
      List.find? (fun (f : Fence) => f.port == p && !f.done) (s.hlm.get m).fences = some f ∧ s.fenceMet m f = true) :=
  ⟨⟨(.fenceW 2 ⟨wHdr0, false⟩), 2, (reqMsg 0x20 wHdr0 0), wUp, by decide +kernel, by decide +kernel,
    arrives_of (by unfold Legal; decide) (by decide +kernel)⟩,
   ⟨2, 1, wFence, wS7, by decide +kernel⟩⟩

/-- States and operands that meet the hypotheses of the clauses of Layouts. -/
theorem wit_Layouts :
    (∃ (op : Zci) (r : Nat), (op,
      r) ∈ [(Zci.act, 1), (Zci.pre, 2), (Zci.preab, 3), (Zci.refpb, 4), (Zci.refab, 5), (Zci.trf, 6), (Zci.mrw, 7), (Zci.mrr, 8), (Zci.tmp, 9), (Zci.pde, 10), (Zci.pdx, 11), (Zci.sre, 12), (Zci.srx, 13)]) ∧
    (∃ (op : Zci) (c : Nat), (op, c) ∈ [(Zci.rd, 0), (Zci.rda, 1), (Zci.wr, 2), (Zci.wra, 3)]) :=
  ⟨⟨.mrw, 7, by decide +kernel⟩,
   ⟨.wra, 3, by decide +kernel⟩⟩

/-- States and operands that meet the hypotheses of the clauses of FlitIsTaken. -/
theorem wit_FlitIsTaken :
    (∃ (m : Sys2Proof.Mod) (f : BitVec 2048) (s : State), (s.hlm.get m).link = LinkState.active ∧ flitCrcOk f = true ∧
      (parseFlitHdr f).nak = false ∧ (parseFlitHdr f).ftype = 1 ∧ (parseFlitHdr f).seq = (s.hlm.get m).flit.rxNext ∧
      (parseSlots (s.hlm.get m).flit.rxPart (parseFlitHdr f).fhs (flitSlots f)).bad = false) ∧
    (∃ (m : Sys2Proof.Mod) (f : BitVec 2048) (s : State), (s.hlm.get m).link = LinkState.active ∧ flitCrcOk f = true ∧
      (parseFlitHdr f).nak = false ∧ ((parseFlitHdr f).ftype = 2 ∨ (parseFlitHdr f).ftype = 1 ∧
      1 ≤ ((s.hlm.get m).flit.rxNext - (parseFlitHdr f).seq).toNat ∧
      ((s.hlm.get m).flit.rxNext - (parseFlitHdr f).seq).toNat ≤ 64)) ∧
    (∃ (m : Sys2Proof.Mod) (f : BitVec 2048) (s : State), (s.hlm.get m).link = LinkState.active ∧ flitCrcOk f = true ∧
      (parseFlitHdr f).nak = false ∧ (parseFlitHdr f).ftype = 1 ∧
      64 < ((s.hlm.get m).flit.rxNext - (parseFlitHdr f).seq).toNat) ∧
    (∃ (m : Sys2Proof.Mod) (f : BitVec 2048) (s : State), (s.hlm.get m).link = LinkState.active ∧
      flitCrcOk f = false) ∧
    (∃ (m : Sys2Proof.Mod) (f : BitVec 2048) (fl : FlitState) (s : State), (s.hlm.get m).link = LinkState.active ∧
      flitCrcOk f = true ∧ (parseFlitHdr f).nak = true ∧ ((parseFlitHdr f).ftype = 1 ∨ (parseFlitHdr f).ftype = 2) ∧
      fl = if (parseFlitHdr f).ackv = true then (s.hlm.get m).flit.acked (parseFlitHdr f).ack else (s.hlm.get m).flit) ∧
    (∃ (m : Sys2Proof.Mod) (f : BitVec 2048) (fl : FlitState) (s : State), (s.hlm.get m).link = LinkState.active ∧
      flitCrcOk f = true ∧ (parseFlitHdr f).nak = true ∧ ((parseFlitHdr f).ftype = 1 ∨ (parseFlitHdr f).ftype = 2) ∧
      (fl = if (parseFlitHdr f).ackv = true then (s.hlm.get m).flit.acked (parseFlitHdr f).ack else (s.hlm.get m).flit) ∧
      (parseFlitHdr f).ftype = 2 ∧ fl.replay = []) ∧
    (∃ (m : Sys2Proof.Mod) (f : BitVec 2048) (s : State), (s.hlm.get m).link = LinkState.active ∧ flitCrcOk f = true ∧
      (parseFlitHdr f).ftype ≠ 1 ∧ (parseFlitHdr f).ftype ≠ 2 ∧ s.canReset m = true) :=
  ⟨⟨2, (wFlit 1), wS8, by decide +kernel, wFlit_crc_1, by decide +kernel, by decide +kernel, by decide +kernel, by decide +kernel⟩,
   ⟨2, (wFlit 2), wS8, by decide +kernel, wFlit_crc_2, by decide +kernel, by decide +kernel⟩,
   ⟨2, (wFlit 1), wS10, by decide +kernel, wFlit_crc_1, by decide +kernel, by decide +kernel, by decide +kernel⟩,
   ⟨2, 0, wUp, by decide +kernel, zero_crc⟩,
   ⟨2, (wFlitNak 1), { (wUp.hlm.get 2).flit with replay := [] }, wUp, by decide +kernel, wFlitNak_crc_1, by decide +kernel, by decide +kernel, by decide +kernel⟩,
   ⟨2, (wFlitNak 2), { (wUp.hlm.get 2).flit with replay := [] }, wUp, by decide +kernel, wFlitNak_crc_2, by decide +kernel, by decide +kernel, by decide +kernel,
     by decide +kernel, by decide +kernel⟩,
   ⟨2, (wFlit 3), wUp, by decide +kernel, wFlit_crc_3, by decide +kernel, by decide +kernel, by decide +kernel⟩⟩

/-- States and operands that meet the hypotheses of the clauses of FlitIsSent. -/
theorem wit_FlitIsSent :
    (∃ (m : Sys2Proof.Mod) (s : State), (s.hlm.get m).link = LinkState.active ∧ (s.hlm.get m).flit.replayAt = none ∧
      (s.hlm.get m).flit.txSlots = [] ∧ (s.hlm.get m).txq = [] ∧ (s.hlm.get m).evq = [] ∧ (s.hlm.get m).dueRead = 0 ∧
      (s.hlm.get m).dueWrite = 0 ∧ (s.hlm.get m).dueCtrl = 0) ∧
    (∃ (m : Sys2Proof.Mod) (s : State), (s.hlm.get m).link = LinkState.active ∧ (s.hlm.get m).flit.replayAt = none ∧
      (s.hlm.get m).flit.replay.length < 64 ∧ (s.hlm.get m).retrains = [] ∧ ((s.hlm.get m).flit.txSlots ≠ [] ∨
      (s.hlm.get m).txq ≠ [] ∨ (s.hlm.get m).evq ≠ [] ∨ 0 < (s.hlm.get m).dueRead ∨ 0 < (s.hlm.get m).dueWrite ∨
      0 < (s.hlm.get m).dueCtrl)) ∧
    (∃ (m : Sys2Proof.Mod) (q : BitVec 12) (e : TxFlit) (r : List TxFlit) (s : State),
      (s.hlm.get m).link = LinkState.active ∧ (s.hlm.get m).flit.replayAt = some q ∧
      List.dropWhile (fun (x : TxFlit) => x.seq != q) (s.hlm.get m).flit.replay = e :: r) :=
  ⟨⟨2, wUp, by decide +kernel⟩,
   ⟨2, wS13, by decide +kernel⟩,
   ⟨2, 7, (wTx 1), [], wS16, by decide +kernel⟩⟩

/-- States and operands that meet the hypotheses of the clauses of LinkStates. -/
theorem wit_LinkStates :
    (∃ (m : Sys2Proof.Mod) (e : TxFlit) (r : List TxFlit) (s : State), (s.hlm.get m).link = LinkState.active ∧
      (s.hlm.get m).flit.replay = e :: r ∧ e.sends < 8) ∧
    (∃ (m : Sys2Proof.Mod) (e : TxFlit) (r : List TxFlit) (s : State), (s.hlm.get m).link = LinkState.active ∧
      (s.hlm.get m).flit.replay = e :: r ∧ 8 ≤ e.sends ∧ s.canReset m = true) ∧
    (∃ (m : Sys2Proof.Mod) (u : Nat) (s : State), (s.hlm.get m).flit.nakSentAt = some u) ∧
    (∃ (m : Sys2Proof.Mod) (w : Window) (s : State), (s.hlm.get m).retryWin = some w) ∧
    (∃ (m : Sys2Proof.Mod) (w : Window) (s : State), (s.hlm.get m).policeWin = some w) ∧
    (∃ (n : Ch) (w : Window) (s : State), (s.chan.get n).st.ceWindow = some w) ∧
    (∃ (m : Sys2Proof.Mod) (s : State), s.canReset m = true) ∧
    (∃ (m : Sys2Proof.Mod) (s : State), (s.hlm.get m).link = LinkState.reset ∧ s.linkOk m = true ∧
      (s.hlm.get m).posted = [] ∧ (s.hlm.get m).flit.inbox = []) :=
  ⟨⟨2, (wTx 1), [], wS8, by decide +kernel⟩,
   ⟨2, (wTx 8), [], wS17, by decide +kernel⟩,
   ⟨2, 44, wS18, by decide +kernel⟩,
   ⟨2, wWin, wS19, by decide +kernel⟩,
   ⟨2, wWin, wS20, by decide +kernel⟩,
   ⟨2, wWin, wS21, by decide +kernel⟩,
   ⟨2, wS22, by decide +kernel⟩,
   ⟨2, wS23, by decide +kernel⟩⟩

/-- States and operands that meet the hypotheses of the clauses of LinkStates, continued. -/
theorem wit_LinkStates_2 :
    (∃ (m : Sys2Proof.Mod) (s : State), (s.hlm.get m).inTraining = true ∧ s.linkOk m = true) ∧
    (∃ (m : Sys2Proof.Mod) (s : State), (s.hlm.get m).inTraining = true ∧ s.linkOk m = true ∧
      (s.hlm.get m).trainAt16 = false) ∧
    (∃ (m : Sys2Proof.Mod) (s : State), (s.hlm.get m).inTraining = true ∧ s.linkOk m = true ∧
      (s.hlm.get m).trainAt16 = true) ∧
    (∃ (m : Sys2Proof.Mod) (s : State), (s.hlm.get m).link = LinkState.down ∧ (s.hlm.get m).usable = true ∧
      s.linkOk m = true) :=
  ⟨⟨2, wS24, by decide +kernel⟩,
   ⟨2, wS24, by decide +kernel⟩,
   ⟨2, wS25, by decide +kernel⟩,
   ⟨2, wS26, by decide +kernel⟩⟩

/-- States and operands that meet the hypotheses of the clauses of AddressMap. -/
theorem wit_AddressMap :
    (∃ (q : Map) (a : BitVec 40) (b : BitVec 40), q.gran ≠ 3 ∧ q.nsid ≤ 4 ∧ (q.decode a).status = 0 ∧
      (q.decode b).status = 0 ∧ (q.decode a).chan = (q.decode b).chan ∧ (q.decode a).loc = (q.decode b).loc) ∧
    (∃ (q : Map), q.gran ≠ 3) :=
  ⟨⟨wUp.map, 0x1000, 0x1001, by decide +kernel⟩,
   ⟨wUp.map, by decide +kernel⟩⟩

/-- States and operands that meet the hypotheses of the clauses of CfgAccess. -/
theorem wit_CfgAccess :
    (∃ (m : Sys2Proof.Mod) (hd : ReqHdr) (s : State), Arrives s m (reqMsg 40 hd 0) ∧
      List.find? (fun (x : CfgReq) => x.port == hd.port) (s.hlm.get m).cfgq = none ∧
      (s.hlm.get m).fenced hd.port = false ∧ (s.hlm.get m).postedBefore hd.port (s.hlm.get m).seq = false ∧
      s.mgmtOn = true) ∧
    (∃ (m : Sys2Proof.Mod) (hd : ReqHdr) (v : Word) (s : State), Arrives s m (reqMsg 41 hd (BitVec.setWidth 576 v)) ∧
      List.find? (fun (x : CfgReq) => x.port == hd.port) (s.hlm.get m).cfgq = none ∧
      (s.hlm.get m).fenced hd.port = false ∧ (s.hlm.get m).postedBefore hd.port (s.hlm.get m).seq = false ∧
      s.mgmtOn = true) ∧
    (∃ (m : Sys2Proof.Mod) (hd : ReqHdr) (s : State), Arrives s m (reqMsg 40 hd 0) ∧
      (s.hlm.get m).fenced hd.port = true) ∧
    (∃ (m : Sys2Proof.Mod) (hd : ReqHdr) (w : Word) (s : State), Arrives s m (reqMsg 40 hd 0) ∧ CfgFree s m hd ∧
      plainOff (BitVec.extractLsb' 0 24 hd.addr).toNat = true ∧
      s.regOff (BitVec.extractLsb' 0 24 hd.addr).toNat = false ∧
      (s.updHlm m fun (h : Hlm) => cfgTaken h hd none s.now).peek (BitVec.extractLsb' 0 24 hd.addr).toNat = some w) ∧
    (∃ (m : Sys2Proof.Mod) (hd : ReqHdr) (v : Word) (r : Word) (s : State) (t : State),
      Arrives s m (reqMsg 41 hd (BitVec.setWidth 576 v)) ∧ CfgFree s m hd ∧
      (s.updHlm m fun (h : Hlm) => cfgTaken h hd (some v) s.now).performOrdered (cfgAccess s m hd (some v)) = (AccRes.ok r,
      t) ∧ (t.hlm.get m).cfgq = (cfgTaken (s.hlm.get m) hd (some v) s.now).cfgq) ∧
    (∃ (m : Sys2Proof.Mod) (hd : ReqHdr) (v : Word) (s : State), Arrives s m (reqMsg 41 hd (BitVec.setWidth 576 v)) ∧
      CfgFree s m hd ∧ BitVec.extractLsb' 0 24 hd.addr = 512 ∧ s.map.frozen = false ∧ BitVec.extractLsb' 0 2 v ≠ 3 ∧
      s.mgmt.cycleWr = []) ∧
    (∃ (m : Sys2Proof.Mod) (c : CfgReq) (a : Access) (s : State), a.org = Origin.inband m c.seq ∧ ∀ (t : State),
      (s.performOrdered a).2 = t →
      List.find? (fun (q : CfgReq) => q.seq == c.seq && q.started) (t.hlm.get m).cfgq = some c) :=
  ⟨⟨2, wHdr, wUp, arrives_of (by unfold Legal; decide) (by decide +kernel), by decide +kernel⟩,
   ⟨2, ⟨1, 5, 0, 0x200⟩, 5, wUp, arrives_of (by unfold Legal; decide) (by decide +kernel), by decide +kernel⟩,
   ⟨2, ⟨1, 5, 0, 0x200⟩, wS7, arrives_of (by unfold Legal; decide) (by decide +kernel), by decide +kernel⟩,
   ⟨2, ⟨1, 5, 0, 0x200⟩, 0x19, wUp, arrives_of (by unfold Legal; decide) (by decide +kernel), ⟨by decide +kernel, by decide +kernel, by decide +kernel, by decide +kernel⟩,
     by decide +kernel⟩,
   ⟨2, ⟨1, 5, 0, 0x200⟩, 5, 0, wUp, ((wUp.updHlm 2 fun h => cfgTaken h ⟨1, 5, 0,
     0x200⟩ (some 5) wUp.now).performOrdered (cfgAccess wUp 2 ⟨1, 5, 0, 0x200⟩ (some 5))).2,
     arrives_of (by unfold Legal; decide) (by decide +kernel), ⟨by decide +kernel, by decide +kernel, by decide +kernel, by decide +kernel⟩, Prod.ext (by decide +kernel) rfl, by decide +kernel⟩,
   ⟨2, ⟨1, 5, 0, 0x200⟩, 5, wUp, arrives_of (by unfold Legal; decide) (by decide +kernel), ⟨by decide +kernel, by decide +kernel, by decide +kernel, by decide +kernel⟩, by decide +kernel⟩,
   ⟨2, (wCfgReq false), (wAcc 0x200 none), wS27, by decide +kernel, by rintro _ rfl; decide⟩⟩

/-- States and operands that meet the hypotheses of the clauses of AccessChecks. -/
theorem wit_AccessChecks :
    (∃ (a : Access), (a.off.toNat = 0 ∨ a.off.toNat = 4 ∨ a.off.toNat = 16 ∨ a.off.toNat = 516) ∧
      a.wr.isSome = true) ∧
    (∃ (a : Access), a.off.toNat % 4 = 0 ∧ isDbgData a.off.toNat = true ∧ a.wr.isSome = true) ∧
    (∃ (a : Access), a.off.toNat % 4 ≠ 0) ∧
    (∃ (a : Access), a.off.toNat % 4 = 0 ∧ a.off.toNat < 8388608 ∧ isFwRange a.off.toNat = true ∧ a.who ≠ fwIdent ∧
      a.wr.isSome = true ∧ isDbgData a.off.toNat = false ∧ (identClass a.who ≠ 2 ∨ isDbgIdx a.off.toNat = false)) ∧
    (∃ (a : Access), a.off.toNat % 4 = 0 ∧ 15728640 ≤ a.off.toNat ∧ a.who ≠ fwIdent) ∧
    (∃ (a : Access) (s : State), plainOff a.off.toNat = true ∧ s.peek a.off.toNat = none) ∧
    (∃ (a : Access) (s : State), (s.peek a.off.toNat).isSome = true ∧ plainOff a.off.toNat = true ∧
      1048576 ≤ a.off.toNat ∧ a.off.toNat < 3145728 ∧ a.wr.isSome = true ∧ s.regOff a.off.toNat = true) :=
  ⟨⟨(wAcc 0x0 (some 3)), by decide +kernel⟩,
   ⟨(wAcc 0x203F04 (some 3)), by decide +kernel⟩,
   ⟨(wAcc 0xF00001 (some 3)), by decide +kernel⟩,
   ⟨(wAcc 0x303004 (some 5)), by decide +kernel⟩,
   ⟨(wAcc 0xF00000 (some 5)), by decide +kernel⟩,
   ⟨(wAcc 0x14 none), wUp, by decide +kernel⟩,
   ⟨(wAcc 0x200004 (some 5)), State.reset, by decide +kernel⟩⟩

/-- States and operands that meet the hypotheses of the clauses of ConfigWrites. -/
theorem wit_ConfigWrites :
    (∃ (i : Instr) (who : Ident) (k : PortK) (v : Word) (s : State), (i = Instr.portClassChange who k v ∨
      i = Instr.applyRates who k v ∨ i = Instr.hwmClr who k v) ∧ s.mgmtOn = true ∧
      s.modOn (portMod (BitVec.ofNat 9 ↑k)) = true ∧ BitVec.extractLsb' 8 2 v ≠ 3) ∧
    (∃ (i : Instr) (who : Ident) (k : PortK) (v : Word) (s : State), (i = Instr.portClassChange who k v ∨
      i = Instr.applyRates who k v ∨ i = Instr.hwmClr who k v) ∧ s.mgmtOn = true ∧
      s.modOn (portMod (BitVec.ofNat 9 ↑k)) = true ∧ BitVec.extractLsb' 8 2 v = 3) ∧
    (∃ (s : State), s.mgmtOn = true ∧ s.map.frozen = true) ∧
    (∃ (v : Word) (s : State), s.mgmtOn = true ∧ s.map.frozen = false ∧ BitVec.extractLsb' 0 2 v ≠ 3) ∧
    (∃ (v : Word) (s : State), s.mgmtOn = true ∧ s.map.frozen = false ∧ BitVec.extractLsb' 0 2 v = 3) ∧
    (∃ (m : Sys2Proof.Mod) (v : Word) (s : State), s.mgmtOn = true ∧ s.canReset m = true ∧ s.modOn m = true ∧
      BitVec.getLsbD v 8 = true ∧ BitVec.getLsbD v 1 = false) :=
  ⟨⟨(.portClassChange 0x21 33 0x30014), 0x21, 33, 0x30014, wUp, by decide +kernel⟩,
   ⟨(.hwmClr 0x21 0 0x00303), 0x21, 0, 0x00303, wUp, by decide +kernel⟩,
   ⟨wS31, by decide +kernel⟩,
   ⟨5, wOn, by decide +kernel⟩,
   ⟨7, wOn, by decide +kernel⟩,
   ⟨2, 0x200101, wS5, by decide +kernel⟩⟩

/-- States and operands that meet the hypotheses of the clauses of AliasWritesOneBit. -/
theorem wit_AliasWritesOneBit :
    (∃ (a : BitVec 24) (s : State), s.mgmtOn = true ∧ a.toNat % 4 = 0 ∧ 8388608 ≤ a.toNat ∧ a.toNat < 10485760) ∧
    (∃ (a : BitVec 24) (s : State), s.mgmtOn = true ∧ a.toNat % 4 = 0 ∧ 8388608 ≤ a.toNat ∧ a.toNat < 10485760 ∧
      aliasOf a.toNat = (512, 3) ∧ s.map.frozen = false ∧ s.map.gran ≠ 3) ∧
    (∃ (a : BitVec 24) (s : State), s.mgmtOn = true ∧ a.toNat % 4 = 0 ∧ 8388608 ≤ a.toNat ∧ a.toNat < 10485760 ∧
      ((mbOf (aliasOf a.toNat).1).isSome = true ∨ (semOf (aliasOf a.toNat).1).isSome = true ∨
      (aliasOf a.toNat).1 = 8192)) :=
  ⟨⟨0x804000, wUp, by decide +kernel⟩,
   ⟨0x80400C, wUp, by decide +kernel⟩,
   ⟨0x818000, wUp, by decide +kernel⟩⟩

/-- States and operands that meet the hypotheses of the clauses of Semaphores. -/
theorem wit_Semaphores :
    (∃ (i : SemIx) (s : State), s.mgmtOn = true ∧ s.mgmt.sem.get i = none) ∧
    (∃ (i : SemIx) (s : State) (w : Ident), s.mgmtOn = true ∧ s.mgmt.sem.get i = some w) ∧
    (∃ (who : Ident) (i : SemIx) (v : Word) (s : State) (w : Ident), s.mgmtOn = true ∧ s.mgmt.sem.get i = some w ∧
      (who = w ∨ who = fwIdent) ∧ v = 2048 ||| BitVec.setWidth 32 w) ∧
    (∃ (who : Ident) (i : SemIx) (v : Word) (s : State) (w : Ident), s.mgmtOn = true ∧ s.mgmt.sem.get i = some w ∧
      ¬((who = w ∨ who = fwIdent) ∧ v = 2048 ||| BitVec.setWidth 32 w)) :=
  ⟨⟨3, wOn, by decide +kernel⟩,
   ⟨3, wS32, 5, by decide +kernel⟩,
   ⟨5, 3, 0x805, wS32, 5, by decide +kernel⟩,
   ⟨6, 3, 0x805, wS32, 5, by decide +kernel⟩⟩

/-- States and operands that meet the hypotheses of the clauses of RegisterWrites. -/
theorem wit_RegisterWrites :
    (∃ (s : State), s.mgmtOn = true) ∧
    (∃ (who : Ident) (s : State), s.mgmtOn = true ∧ who ≠ fwIdent) ∧
    (∃ (r : FwReg) (n : Ch) (s : State), fwAwake s ∧ fwRegCh r = some n ∧ s.quadOn n = false) ∧
    (∃ (n : Ch) (s : State), fwReaches s n) ∧
    (∃ (n : Ch) (i : Fin 2) (j : Fin 2) (v : Word) (s : State), fwReaches s n ∧
      i = Fin.ofNat 2 (BitVec.toNat v / 64) ∧ j = Fin.ofNat 2 (BitVec.toNat v / 32)) ∧
    (∃ (n : Ch) (q : Option Pc) (v : Word) (s : State), fwReaches s n ∧
      BitVec.toNat v % 4 = match q with | none => 3 | some p => ↑p + 1) ∧
    (∃ (n : Ch) (v : Word) (s : State), fwReaches s n ∧ BitVec.toNat v % 4 = 0) ∧
    (∃ (n : Ch) (p : Pc) (lane : Fin 36) (v : Word) (s : State), fwReaches s n ∧ BitVec.getLsbD v 0 = true ∧
      ((s.chan.get n).pc.get p).marks.getLsbD ↑lane = false ∧ s.markRoom n p = true) :=
  ⟨⟨wUp, by decide +kernel⟩,
   ⟨0x21, wUp, by decide +kernel⟩,
   ⟨(.recalEn 3), 3, wS33, by decide +kernel⟩,
   ⟨3, wUp, by decide +kernel⟩,
   ⟨3, 1, 1, 0x63, wUp, by decide +kernel⟩,
   ⟨3, none, 3, wUp, by decide +kernel⟩,
   ⟨3, 4, wUp, by decide +kernel⟩,
   ⟨3, 1, 4, 1, wUp, by decide +kernel⟩⟩

/-- States and operands that meet the hypotheses of the clauses of RegisterWrites, continued. -/
theorem wit_RegisterWrites_2 :
    (∃ (n : Ch) (p : Pc) (lane : Fin 36) (v : Word) (s : State), fwReaches s n ∧
      BitVec.getLsbD v 0 = ((s.chan.get n).pc.get p).marks.getLsbD ↑lane) ∧
    (∃ (n : Ch) (p : Pc) (lane : Fin 36) (v : Word) (s : State), fwReaches s n ∧ BitVec.getLsbD v 0 = false ∧
      ((s.chan.get n).pc.get p).marks.getLsbD ↑lane = true) ∧
    (∃ (n : Ch) (s : State), fwReaches s n ∧ (s.chan.get (s.map.server n)).repairHolds = false) ∧
    (∃ (n : Ch) (s : State), fwReaches s n ∧ (s.chan.get (s.map.server n)).repairHolds = true) ∧
    (∃ (n : Ch) (p : Pc) (sid : SidIx) (s : State), fwReaches s n ∧
      s.zciReady (s.map.server n) (bankSid (firstBank p sid)) = false) ∧
    (∃ (v : Word) (s : State), fwAwake s ∧ (BitVec.extractLsb' 0 2 v ≠ 0 ∨ s.pwr.state ≠ PwrState.chrysMgmt)) ∧
    (∃ (s : State), fwAwake s) ∧
    (∃ (v : Word) (s : State), fwAwake s ∧ (s.mgmt.therm.budget ≤ 0 ∨ 0 < BitVec.toNat v)) :=
  ⟨⟨3, 1, 4, 0, wUp, by decide +kernel⟩,
   ⟨3, 1, 4, 0, wS36, by decide +kernel⟩,
   ⟨3, wClk, by decide +kernel⟩,
   ⟨3, wS39, by decide +kernel⟩,
   ⟨3, 1, 0, wS38, by decide +kernel⟩,
   ⟨0, wUp, by decide +kernel⟩,
   ⟨wUp, by decide +kernel⟩,
   ⟨1, wUp, by decide +kernel⟩⟩

/-- States and operands that meet the hypotheses of the clauses of RegisterWrites, continued. -/
theorem wit_RegisterWrites_3 :
    (∃ (d : Fin 39) (s : State), fwAwake s ∧ ↑d < 2) ∧
    (∃ (d : Fin 39) (v : Word) (s : State), fwAwake s ∧ 2 ≤ ↑d ∧ BitVec.getLsbD v 0 = true) ∧
    (∃ (d : Fin 39) (v : Word) (s : State), fwAwake s ∧ 2 ≤ ↑d ∧ BitVec.getLsbD v 0 = false) ∧
    (∃ (r : Fin 8) (i : Fin 1024) (s : State), fwAwake s ∧ (r ≠ 0 ∨ 8 ≤ ↑i)) ∧
    (∃ (r : Fin 8) (i : Fin 1024) (s : State), fwAwake s ∧ (r ≠ 0 ∨ 8 ≤ ↑i) ∧
      (List.filter (fun (x : Nat × Nat × Word) => decide ¬(x.1 = ↑r ∧ x.2.1 = ↑i)) s.mgmt.fuse.shadows).length < 32) ∧
    (∃ (o : BitVec 24) (v : Word) (s : State), s.boot.ph ≠ BootPh.warm 1 ∧ s.mgmt.postAon.pend = some (o, v)) ∧
    (∃ (n : Ch) (o : BitVec 24) (v : Word) (s : State), s.boot.ph ≠ BootPh.warm 1 ∧
      (s.mgmt.postTsv.get n).pend = some (o, v) ∧ s.quadOn n = true) :=
  ⟨⟨1, wUp, by decide +kernel⟩,
   ⟨30, 1, wUp, by decide +kernel⟩,
   ⟨30, 0, wUp, by decide +kernel⟩,
   ⟨1, 9, wS41, by decide +kernel⟩,
   ⟨1, 9, wS41, by decide +kernel⟩,
   ⟨0x10008, 9, wS42, by decide +kernel⟩,
   ⟨3, 0x30C008, 9, wS43, by decide +kernel⟩⟩

/-- States and operands that meet the hypotheses of the clauses of OneMcCycle. -/
theorem wit_OneMcCycle :
    (∃ (s : State), s.mgmtOn = true) ∧
    (∃ (who : Ident) (a : Ident) (v : Word) (w : Word) (x : Word) (s : State), s.mgmtOn = true ∧
      writeRank who ≠ writeRank a ∧ BitVec.extractLsb' 0 2 v ≠ 3 ∧ BitVec.extractLsb' 0 2 w ≠ 3 ∧
      s.map.frozen = false ∧ x = if writeRank who < writeRank a then w else v) ∧
    (∃ (who : Ident) (a : Ident) (v : Word) (y : Word) (b : Bool) (s : State), s.mgmtOn = true ∧
      s.map.frozen = false ∧ s.map.gran ≠ 3 ∧ BitVec.extractLsb' 0 2 v ≠ 3 ∧ writeRank who ≠ writeRank a ∧
      BitVec.getLsbD y 0 = b) ∧
    (∃ (i : SemIx) (who : Ident) (a : Ident) (o : BitVec 24) (s : State), s.mgmtOn = true ∧ s.mgmt.sem.get i = none ∧
      o = BitVec.ofNat 24 (3072 + 4 * ↑i) ∧ writeRank who < writeRank a) ∧
    (∃ (i : SemIx) (who : Ident) (o : BitVec 24) (s : State), s.mgmtOn = true ∧ s.mgmt.sem.get i = some who ∧
      o = BitVec.ofNat 24 (3072 + 4 * ↑i)) :=
  ⟨⟨wUp, by decide +kernel⟩,
   ⟨0x21, 0x414, 5, 9, 9, wUp, by decide +kernel⟩,
   ⟨0x21, 0x414, 8, 0, false, wUp, by decide +kernel⟩,
   ⟨3, 0x21, 0x414, 0xC0C, wUp, by decide +kernel⟩,
   ⟨3, 0x21, 0xC0C, wS67, by decide +kernel⟩⟩

/-- States and operands that meet the hypotheses of the clauses of Events. -/
theorem wit_Events :
    (∃ (e : Ev) (o : Occ) (s : State), List.find? (fun (x : Occ) => x.e == e) s.mgmt.occq = some o ∧ s.mgmtOn = true ∧
      (s.mgmt.ev.get e).ibiEn = false ∧ s.mgmt.log.hq.length < 16) ∧
    (∃ (e : Ev) (v : Word) (s : State), s.mgmtOn = true ∧
      (BitVec.extractLsb' 0 16 v - (s.mgmt.ev.get e).ack).toNat ≤ ((s.mgmt.ev.get e).occ - (s.mgmt.ev.get e).ack).toNat) ∧
    (∃ (e : Ev) (v : Word) (s : State), s.mgmtOn = true ∧
      ((s.mgmt.ev.get e).occ - (s.mgmt.ev.get e).ack).toNat < (BitVec.extractLsb' 0 16 v - (s.mgmt.ev.get e).ack).toNat) ∧
    (∃ (e : Ev) (at_ : Nat) (o : BitVec 16) (s : State), (s.mgmt.ev.get e).holdoff ≠ 0 ∧
      (s.mgmt.ev.get e).lastMsg = some (at_, o) ∧ (s.mgmt.ev.get e).lastIbi = none ∧ (s.mgmt.ev.get e).msgEn = true ∧
      s.mgmtOn = true ∧ (s.mgmt.ev.get e).occ = o) ∧
    (∃ (e : Ev) (at_ : Nat) (o : BitVec 16) (s : State), (s.mgmt.ev.get e).holdoff ≠ 0 ∧
      (s.mgmt.ev.get e).lastMsg = some (at_, o) ∧ (s.mgmt.ev.get e).lastIbi = none ∧ (s.mgmt.ev.get e).msgEn = true ∧
      s.mgmtOn = true ∧ (s.mgmt.ev.get e).occ ≠ o ∧ (s.hlm.get (s.mgmt.ev.get e).module).link = LinkState.active ∧
      ∀ q ∈ (s.hlm.get (s.mgmt.ev.get e).module).evq, q.e ≠ e) :=
  ⟨⟨9, (wOcc 9), wS44, by decide +kernel⟩,
   ⟨9, 6, wS47, by decide +kernel⟩,
   ⟨9, 8, wS47, by decide +kernel⟩,
   ⟨9, 50, 7, wS48, by decide +kernel⟩,
   ⟨9, 50, 6, wS49, by decide +kernel⟩⟩

/-- States and operands that meet the hypotheses of the clauses of InterruptsAndSideband. -/
theorem wit_InterruptsAndSideband :
    (∃ (t : Fin 4) (e : Ev) (r : List Ev) (s : State), (∀ (k : Ev), k ∈ e :: r ↔ (s.mgmt.ev.get k).ibiEn = true ∧
      (s.mgmt.ev.get k).ibiTgt = t ∧ (s.mgmt.ev.get k).occ ≠ (s.mgmt.ev.get k).ack) ∧
      List.Pairwise (fun (a b : Fin 360) => (s.mgmt.ev.get a).occAt < (s.mgmt.ev.get b).occAt ∨
      (s.mgmt.ev.get a).occAt = (s.mgmt.ev.get b).occAt ∧ a < b) (e :: r) ∧ s.mgmtOn = true) ∧
    (∃ (t : Fin 4) (e : Ev) (r : List Ev) (s : State), (∀ (k : Ev), k ∈ e :: r ↔ (s.mgmt.ev.get k).ibiEn = true ∧
      (s.mgmt.ev.get k).ibiTgt = t ∧ (s.mgmt.ev.get k).occ ≠ (s.mgmt.ev.get k).ack) ∧
      List.Pairwise (fun (a b : Fin 360) => (s.mgmt.ev.get a).occAt < (s.mgmt.ev.get b).occAt ∨
      (s.mgmt.ev.get a).occAt = (s.mgmt.ev.get b).occAt ∧ a < b) (e :: r) ∧ s.mgmtOn = true ∧
      (s.mgmt.i3c.get t).ibi ≠ none) ∧
    (∃ (t : Fin 4) (s : State), (∀ (k : Fin 360), (s.mgmt.ev.get k).ibiEn = true → (s.mgmt.ev.get k).ibiTgt = t →
      (s.mgmt.ev.get k).occ = (s.mgmt.ev.get k).ack) ∧ s.mgmtOn = true) ∧
    (∃ (t : Fin 4) (s : State), (∀ (k : Fin 360), (s.mgmt.ev.get k).ibiEn = true → (s.mgmt.ev.get k).ibiTgt = t →
      (s.mgmt.ev.get k).occ = (s.mgmt.ev.get k).ack) ∧ s.mgmtOn = true ∧ (s.mgmt.i3c.get t).ibi ≠ none) ∧
    (∃ (t : Fin 4) (bytes : List Byte) (s : State) (w : Word), s.mgmtOn = true ∧ (s.mgmt.i3c.get t).ibi = none ∧
      bytes.length = 3 ∧ (s.mgmt.i3c.get t).busy = false ∧ (s.mgmt.i3c.get t).ready = none ∧
      plainOff (BitVec.ofNat 24 (bytesAt bytes 0 3)).toNat = true ∧
      s.regOff (BitVec.ofNat 24 (bytesAt bytes 0 3)).toNat = false ∧
      s.peek (BitVec.ofNat 24 (bytesAt bytes 0 3)).toNat = some w) ∧
    (∃ (t : Fin 4) (bytes : List Byte) (s : State) (a : Access) (r : AccRes), s.mgmtOn = true ∧
      (s.mgmt.i3c.get t).ibi = none ∧ bytes.length = 7 ∧
      a = { who := sbIdent t, org := Origin.sideband t, off := BitVec.ofNat 24 (bytesAt bytes 0 3), wr := some (w32 (bytesAt bytes 3 4)) } ∧
      (s.performOrdered a).1 = r ∧ r ≠ AccRes.wait) ∧
    (∃ (t : Fin 4) (bytes : List Byte) (s : State), s.mgmtOn = true ∧ (s.mgmt.i3c.get t).ibi = none ∧
      bytes.length = 7) ∧
    (∃ (t : Fin 4) (s : State), s.mgmtOn = true ∧ (s.mgmt.i3c.get t).ibi = none) :=
  ⟨⟨1, 9, [300],
    ((wEvs 9 fun x => { x with ibiEn := true, ibiTgt := 1, occ := 7 }).updEv 300 fun x => { x with ibiEn := true, ibiTgt := 1, occ := 8 }),
    by decide +kernel⟩,
   ⟨1, 9, [],
     ((wEvs 9 fun x => { x with ibiEn := true, ibiTgt := 1, occ := 7 }).updI3c 1 fun x => { x with ibi := some 4 }),
     by decide +kernel⟩,
   ⟨1, wS50, by decide +kernel⟩,
   ⟨1, wS50, by decide +kernel⟩,
   ⟨1, (wBytes 3), wUp, 0x19, by decide +kernel⟩,
   ⟨1, (wBytes 7), wUp, { who := sbIdent 1, org := .sideband 1, off := 0x200, wr := some 5 }, (.ok 0), by decide +kernel⟩,
   ⟨1, (wBytes 7), wUp, by decide +kernel⟩,
   ⟨1, wUp, by decide +kernel⟩⟩

/-- States and operands that meet the hypotheses of the clauses of InterruptsAndSideband, continued. -/
theorem wit_InterruptsAndSideband_2 :
    (∃ (t : Fin 4) (bytes : List Byte) (s : State), s.mgmtOn = true ∧ (s.mgmt.i3c.get t).ibi = none ∧
      bytes.length ≠ 7) ∧
    (∃ (t : Fin 4) (bytes : List Byte) (s : State), s.mgmtOn = true ∧ (s.mgmt.i3c.get t).ibi = none ∧
      bytes.length = 3 ∧ (s.mgmt.i3c.get t).busy = false ∧ (s.mgmt.i3c.get t).ready = none) ∧
    (∃ (t : Fin 4) (bytes : List Byte) (s : State), s.mgmtOn = true ∧ (s.mgmt.i3c.get t).ibi = none ∧
      bytes.length = 3 ∧ (s.mgmt.i3c.get t).busy = true) ∧
    (∃ (t : Fin 4) (bytes : List Byte) (s : State) (d : BitVec 40), s.mgmtOn = true ∧ (s.mgmt.i3c.get t).ibi = none ∧
      bytes.length = 3 ∧ (s.mgmt.i3c.get t).busy = false ∧
      (s.mgmt.i3c.get t).ready = some (BitVec.ofNat 24 (bytesAt bytes 0 3), d)) :=
  ⟨⟨1, (wBytes 3), wUp, by decide +kernel⟩,
   ⟨1, (wBytes 3), wUp, by decide +kernel⟩,
   ⟨1, (wBytes 3), wS51, by decide +kernel⟩,
   ⟨1, (wBytes 3), wS52, 9, by decide +kernel⟩⟩

/-- States and operands that meet the hypotheses of the clauses of LogPackets. -/
theorem wit_LogPackets :
    (∃ (p : LogPkt) (r : List LogPkt) (s : State), s.mgmtOn = true ∧ s.mgmt.log.hq = p :: r ∧
      s.mgmt.log.openPkt = none ∧ s.mgmt.log.fill.length + p.words.length + 1 ≤ 2047) ∧
    (∃ (p : LogPkt) (r : List LogPkt) (s : State), s.mgmtOn = true ∧ s.mgmt.log.hq = p :: r ∧
      s.mgmt.log.openPkt = none ∧ 2047 < s.mgmt.log.fill.length + p.words.length + 1 ∧ s.mgmt.log.drain = [] ∧
      s.mgmt.log.fill ≠ []) ∧
    (∃ (d : Nat) (s : State), s.mgmt.log.openPkt = none ∧ s.mgmt.log.hq = [] ∧ s.mgmt.fw.st ≠ FwState.restarting ∧
      s.mgmtOn = true ∧ s.mgmt.log.fill.length + d + 1 ≤ 2047 ∧ s.mgmt.log.fill.length < 2046) ∧
    (∃ (p : OpenPkt) (s : State), s.mgmt.log.openPkt = some p ∧ p.trunc = false ∧ p.mark + 1 + p.words.length < 2047 ∧
      p.words.length < 254) ∧
    (∃ (p : OpenPkt) (s : State), s.mgmtOn = true ∧ s.mgmt.log.openPkt = some p ∧ p.abandoned = false) :=
  ⟨⟨wPkt, [], wS53, by decide +kernel⟩,
   ⟨wPkt, [], wS54, by decide +kernel⟩,
   ⟨4, wUp, by decide +kernel⟩,
   ⟨wOpen, wS55, by decide +kernel⟩,
   ⟨wOpen, wS55, by decide +kernel⟩⟩

/-- States and operands that meet the hypotheses of the clauses of LogBanks. -/
theorem wit_LogBanks :
    (∃ (u : Nat) (s : State), s.mgmtOn = true ∧ s.mgmt.log.firstClosed = some u) ∧
    (∃ (s : State), s.mgmtOn = true ∧ s.mgmt.log.canSwap = true ∧ s.mgmt.log.pops = []) ∧
    (∃ (w : Word) (r : List Word) (s : State), s.mgmtOn = true ∧ s.mgmt.log.drain = w :: r) ∧
    (∃ (s : State), s.mgmtOn = true ∧ s.mgmt.log.drain = []) ∧
    (∃ (v : Word) (s : State), s.mgmtOn = true ∧ BitVec.getLsbD v 16 = true ∧ s.mgmt.log.openPkt = none) ∧
    (∃ (v : Word) (p : OpenPkt) (s : State), s.mgmtOn = true ∧ BitVec.getLsbD v 16 = true ∧
      s.mgmt.log.openPkt = some p ∧ p.abandoned = false) :=
  ⟨⟨77, wS56, by decide +kernel⟩,
   ⟨wS57, by decide +kernel⟩,
   ⟨4, [5], wS58, by decide +kernel⟩,
   ⟨wUp, by decide +kernel⟩,
   ⟨0x10400, wS58, by decide +kernel⟩,
   ⟨0x10400, wOpen, wS59, by decide +kernel⟩⟩

/-- States and operands that meet the hypotheses of the clauses of InboundStamp. -/
theorem wit_InboundStamp :
    (∃ (who : Ident) (k : Mb) (s : State), s.mgmtOn = true ∧ (s.mb k).owner = some who ∧ (s.mb k).inFull = false ∧
      s.fw.waiting = false) ∧
    (∃ (who : Ident) (k : Mb) (s : State), s.mgmtOn = true ∧ (s.mb k).owner = some who ∧ (s.mb k).inFull = false ∧
      s.fw.waiting = true) ∧
    (∃ (who : Ident) (k : Mb) (s : State), s.mgmtOn = true ∧ (s.mb k).owner = some who ∧ (s.mb k).inFull = true) ∧
    (∃ (who : Ident) (k : Mb) (s : State), s.mgmtOn = true ∧ (s.mb k).owner ≠ some who) :=
  ⟨⟨0x21, 2, (wMb 2 id), by decide +kernel⟩,
   ⟨0x21, 2, ((wMb 2 id).updFw fun f => { f with waiting := true }), by decide +kernel⟩,
   ⟨0x21, 2, wS61, by decide +kernel⟩,
   ⟨0x22, 2, (wMb 2 id), by decide +kernel⟩⟩

/-- States and operands that meet the hypotheses of the clauses of MailboxFirmware. -/
theorem wit_MailboxFirmware :
    (∃ (k : Mb) (s : State), s.fwRuns = true ∧ (s.mb k).inFull = true ∧ (s.mb k).takeStatus (s.mb k).inw = none) ∧
    (∃ (k : Mb) (e : BitVec 4) (s : State), s.fwRuns = true ∧ (s.mb k).inFull = true ∧
      (s.mb k).takeStatus (s.mb k).inw = some e) ∧
    (∃ (k : Mb) (a : Answer) (r : List Answer) (s : State), s.fwRuns = true ∧ (s.mb k).answers = a :: r ∧
      (s.mb k).outFull = false ∧ (s.mb k).waiting = [] ∧ ∀ x ∈ s.fw.resetAsks, x.1 = k → x.2.1 ≠ a.tag) ∧
    (∃ (who : Ident) (k : Mb) (v : Word) (s : State), s.mgmtOn = true ∧ (s.mb k).owner = some who ∧
      (s.mb k).outFull = true ∧ BitVec.getLsbD v 0 = true ∧ cmdOpcode (s.mb k).out ≠ 127 ∧
      cmdOpcode (s.mb k).out ≠ 120) ∧
    (∃ (who : Ident) (k : Mb) (v : Word) (s : State), s.mgmtOn = true ∧ (s.mb k).owner = some who ∧
      (s.mb k).outFull = true ∧ BitVec.getLsbD v 0 = true ∧ outIsScrubDone (s.mb k).out = true ∧
      s.mgmt.scrub.mb = some k ∧ s.mgmt.scrub.running = false) ∧
    (∃ (k : Mb) (s : State), s.fwRuns = true ∧ (s.mb k).winFw = false) ∧
    (∃ (k : Mb) (s : State), s.fwRuns = true ∧ (s.mb k).winFw = true) ∧
    (∃ (k : Mb) (s : State), (s.mb k).winFw = true) :=
  ⟨⟨2, wS62, by decide +kernel⟩,
   ⟨2, stUNKNOWN, wS61, by decide +kernel⟩,
   ⟨2, { opcode := 1, tag := 2, status := 0, result := 3 }, [], wS63, by decide +kernel⟩,
   ⟨0x21, 2, 1, wS64, by decide +kernel⟩,
   ⟨0x21, 2, 1,
     ((wMb 2 fun b => { b with outFull := true, out := 0xC01FC001 }).updScrub fun b => { b with mb := some 2, held := true }),
     by decide +kernel⟩,
   ⟨2, (wMb 2 id), by decide +kernel⟩,
   ⟨2, wS65, by decide +kernel⟩,
   ⟨2, wS66, by decide +kernel⟩⟩

/-- States and operands that meet the hypotheses of the clauses of ClassLimitWrite. -/
theorem wit_ClassLimitWrite :
    (∃ (n : Ch) (c : Fin 16) (v : Word) (s : State), s.mgmtOn = true ∧ s.quadOn n = true ∧
      ¬(256 < (BitVec.extractLsb' 9 9 v).toNat ∨ (BitVec.extractLsb' 9 9 v).toNat < (BitVec.extractLsb' 0 9 v).toNat ∨
      256 < (List.map BitVec.toNat (upd (s.chan.get n).cfg.rsvMin c fun _ => BitVec.extractLsb' 0 9 v).toList).sum)) ∧
    (∃ (n : Ch) (c : Fin 16) (v : Word) (s : State), s.mgmtOn = true ∧ s.quadOn n = true ∧
      (256 < (BitVec.extractLsb' 9 9 v).toNat ∨ (BitVec.extractLsb' 9 9 v).toNat < (BitVec.extractLsb' 0 9 v).toNat ∨
      256 < (List.map BitVec.toNat (upd (s.chan.get n).cfg.rsvMin c fun _ => BitVec.extractLsb' 0 9 v).toList).sum)) ∧
    (∃ (c : Chan) (k : Fin 16) (now : Nat), ((c.cfgAt now).rsvMax.get k).toNat ≤ c.occ (BitVec.ofNat 4 ↑k)) :=
  ⟨⟨3, 5, 0x40201, wUp, by decide +kernel⟩,
   ⟨3, 5, 0x3FF00, wUp, by decide +kernel⟩,
   ⟨{ (wUp.chan.get 3) with cfg := { (wUp.chan.get 3).cfg with rsvMax := Vector.replicate 16 0 } }, 5, 0, by decide +kernel⟩⟩

/-- States and operands that meet the hypotheses of the clauses of Crossbar. -/
theorem wit_Crossbar :
    (∃ (n : Ch) (u : Upset) (m : Sys2Proof.Mod) (r : Rq) (s : State), s.accepts n = true ∧ s.pickRequest n = some (m,
      r) ∧ (u = Upset.none ∨ u = Upset.xferOnce)) ∧
    (∃ (n : Ch) (u : Upset) (m : Sys2Proof.Mod) (r : Rq) (s : State), s.accepts n = true ∧ s.pickRequest n = some (m,
      r) ∧ (u = Upset.header ∨ u = Upset.store ∨ u = Upset.xferTwice)) ∧
    (∃ (n : Ch) (m : Sys2Proof.Mod) (r : Rq) (s : State), s.accepts n = true ∧ s.pickRequest n = some (m, r) ∧
      (r.kind = RKind.rd64 ∨ r.kind = RKind.rd128 ∨ r.kind = RKind.ldr ∨ r.kind = RKind.amo ∨ r.kind = RKind.stc) ∧
      s.map.isFollower n = false) ∧
    (∃ (n : Ch) (m : Sys2Proof.Mod) (r : Resp) (s : State), (s.hlm.get m).mayTake s.now = true ∧ s.domOn 2 = true ∧
      s.modOn m = true ∧ s.pickResponse m = some (n, r)) :=
  ⟨⟨0, .none, 2, wRq, wS68, by decide +kernel⟩,
   ⟨0, .header, 2, wRq, wS68, by decide +kernel⟩,
   ⟨0, 2, (wRqOf .rd64), wS69, by decide +kernel⟩,
   ⟨3, 2, wResp, wS74, by decide +kernel⟩⟩

/-- States and operands that meet the hypotheses of the clauses of OneCommandPerBus. -/
theorem wit_OneCommandPerBus :
    (∃ (n : Ch) (cc : Nat) (s : State), s.engineRuns n = true ∧ s.now ≤ cc ∧ ∀ (u : Nat),
      (s.chan.get n).st.lastCc = some u → u < cc) ∧
    (∃ (n : Ch) (cc : Nat) (e : Entry) (s : State), Alone s n e ∧ s.now ≤ cc ∧ (∀ (u : Nat),
      (s.chan.get n).st.lastCc = some u → u < cc) ∧ ((s.chan.get n).bank e.loc.bank).row = none ∧
      ((s.chan.get n).trk e.loc.bank).beforeAct e.loc.row = none ∧ (s.chan.get n).cfg.pace = 0) ∧
    (∃ (n : Ch) (cc : Nat) (e : Entry) (s : State), Alone s n e ∧ s.now ≤ cc ∧ ∀ (u : Nat),
      (s.chan.get n).st.lastCc = some u → u < cc) ∧
    (∃ (n : Ch) (cc : Nat) (e : Entry) (s : State), Alone s n e ∧ s.now ≤ cc ∧ (∀ (u : Nat),
      (s.chan.get n).st.lastCc = some u → u < cc) ∧ ((s.chan.get n).bank e.loc.bank).row = some e.loc.row) :=
  ⟨⟨3, 50, (wTt [wEnt .rd64 .wait]), by decide +kernel⟩,
   ⟨3, 500, (wEnt .rd64 .wait), (wTt [wEnt .rd64 .wait]), alone_of (by decide +kernel), by decide +kernel⟩,
   ⟨3, 500, (wEnt .rd64 .wait), (wTt [wEnt .rd64 .wait]), alone_of (by decide +kernel), by decide +kernel⟩,
   ⟨3, 500, (wEnt .rd64 .hit), (wOpenTo 5 (wEnt .rd64 .hit)), alone_of (by decide +kernel), by decide +kernel⟩⟩

/-- States and operands that meet the hypotheses of the clauses of TripHoldStopsActs. -/
theorem wit_TripHoldStopsActs :
    (∃ (n : Ch) (cc : Nat) (s : State) (t : State), (s.chan.get n).st.tripHold = true ∧
      exec (Instr.schedulerCc n cc) s = Host.Outcome.next t) :=
  ⟨3, 50, wTrip, (wNext (.schedulerCc 3 50) wTrip), by decide +kernel, rfl⟩

/-- States and operands that meet the hypotheses of the clauses of CommandsKeepTiming. -/
theorem wit_CommandsKeepTiming :
    (∃ (n : Ch) (cc : Nat) (s : State) (t : State), exec (Instr.schedulerCc n cc) s = Host.Outcome.next t ∧
      ∀ q ∈ (s.chan.get n).st.hist, q.tim.tRC ≤ histWindow ∧ q.tim.tRCD ≤ histWindow ∧ q.tim.tRAS ≤ histWindow ∧
      q.tim.tRP ≤ histWindow) :=
  ⟨3, 500, wActs, (wNext (.schedulerCc 3 500) wActs), rfl, by decide +kernel⟩

/-- States and operands that meet the hypotheses of the clauses of ReadIsDecoded. -/
theorem wit_ReadIsDecoded :
    (∃ (n : Ch) (i : EntryIx) (e : Entry) (errs : List SymErr) (s : State), (s.chan.get n).entry? i = some e ∧
      e.st = EState.colrd ∧ e.retryDue = false ∧ (s.chan.get n).unsure e.colAt = false ∧ (e.kind = RKind.rd64 ∨
      e.kind = RKind.rd128 ∨ e.kind = RKind.ldr) ∧ s.storedPoison n e.twin e.loc = false ∧ inArray s n e ∧
      2 * (List.filter (fun (x : SymErr) => x.xor != 0 && decide (x.pos < rsLen e.twin) && !s.onMark n e x.pos) errs).length + s.erasures n e ≤ rsChecks e.twin) ∧
    (∃ (n : Ch) (i : EntryIx) (e : Entry) (errs : List SymErr) (s : State), (s.chan.get n).entry? i = some e ∧
      e.st = EState.colrd ∧ e.retryDue = false ∧ (s.chan.get n).unsure e.colAt = false ∧ e.kind = RKind.rd64 ∧
      s.storedPoison n e.twin e.loc = true ∧ inArray s n e ∧
      2 * (List.filter (fun (x : SymErr) => x.xor != 0 && decide (x.pos < rsLen e.twin) && !s.onMark n e x.pos) errs).length + s.erasures n e ≤ rsChecks e.twin - 1) ∧
    (∃ (n : Ch) (i : EntryIx) (e : Entry) (s : State), (s.chan.get n).entry? i = some e ∧ e.st = EState.colrd ∧
      e.retryDue = false ∧ (s.chan.get n).unsure e.colAt = false ∧ e.retry = false ∧ e.kind ≠ RKind.mrd) ∧
    (∃ (n : Ch) (i : EntryIx) (e : Entry) (errs : List SymErr) (s : State), (s.chan.get n).entry? i = some e ∧
      e.st = EState.colrd ∧ e.retryDue = false ∧ (s.chan.get n).unsure e.colAt = false ∧ e.retry = false ∧
      e.kind = RKind.mrd ∧ e.purpose = Purpose.scrubRd ∧ s.mgmt.scrub.running = true ∧
      s.storedPoison n e.twin e.loc = false ∧ inArray s n e ∧ (∀ x ∈ (s.chan.get n).st.tt, x.st ≠ EState.chain) ∧
      2 * (List.filter (fun (x : SymErr) => x.xor != 0 && decide (x.pos < rsLen e.twin) && !s.onMark n e x.pos) errs).length + s.erasures n e ≤ rsChecks e.twin) ∧
    (∃ (n : Ch) (i : EntryIx) (e : Entry) (s : State), (s.chan.get n).entry? i = some e ∧ e.st = EState.colrd ∧
      (s.chan.get n).unsure e.colAt = true) :=
  ⟨⟨3, 4, (wEnt .rd64 .colrd), [wErr 5, wErr 9], (wTt [wEnt .rd64 .colrd]), by decide +kernel⟩,
   ⟨3, 4, (wEnt .rd64 .colrd), [wErr 5], ((wTt [wEnt .rd64 .colrd]).writePoison 3 wLoc 7), by decide +kernel⟩,
   ⟨3, 4, (wEnt .rd64 .colrd), (wTt [wEnt .rd64 .colrd]), by decide +kernel⟩,
   ⟨3, 4, { wEnt .mrd .colrd with purpose := .scrubRd, maint := true }, [wErr 5],
     ((wTt [{ wEnt .mrd .colrd with purpose := .scrubRd, maint := true }]).updScrub fun b => { b with running := true, mode := 1 }),
     by decide +kernel⟩,
   ⟨3, 4, (wEnt .rd64 .colrd), wS90, by decide +kernel⟩⟩

/-- States and operands that meet the hypotheses of the clauses of WriteReachesStore. -/
theorem wit_WriteReachesStore :
    (∃ (n : Ch) (i : EntryIx) (e : Entry) (s : State), (s.chan.get n).entry? i = some e ∧ e.idx = i ∧
      e.st = EState.colwr ∧ e.purpose = Purpose.host ∧ e.poison = false ∧ (s.chan.get n).spareOf e = none ∧
      inArray s n e ∧ (s.chan.get n).unsure e.colAt = false) ∧
    (∃ (n : Ch) (i : EntryIx) (j : Fin 16) (e : Entry) (s : State), (s.chan.get n).entry? i = some e ∧ e.idx = i ∧
      e.st = EState.sram ∧ e.purpose = Purpose.host ∧ e.isWrite = true ∧ (s.chan.get n).spareOf e = some j) :=
  ⟨⟨3, 4, (wEnt .wr64 .colwr), wS76, by decide +kernel⟩,
   ⟨3, 4, 0, (wEnt .wr64 .sram), wS77, by decide +kernel⟩⟩

/-- States and operands that meet the hypotheses of the clauses of Atomics. -/
theorem wit_Atomics :
    (∃ (n : Ch) (e : Entry) (v : BitVec (aszBits e.asz)) (s : State), (s.chan.get n).unitEntry = some e ∧
      e.st = EState.lb ∧ e.kind = RKind.amo ∧
      amoResult e.aop (BitVec.extractLsb' e.bitOff (aszBits e.asz) ((s.chan.get n).st.lb.get (Fin.ofNat 16 e.lb.toNat)).data) (BitVec.extractLsb' 0 (aszBits e.asz) e.data) (BitVec.extractLsb' (aszBits e.asz) (aszBits e.asz) e.data) = some v ∧
      ((s.chan.get n).st.lb.get (Fin.ofNat 16 e.lb.toNat)).poison = false) ∧
    (∃ (n : Ch) (e : Entry) (s : State), (s.chan.get n).unitEntry = some e ∧ e.st = EState.lb ∧ e.kind = RKind.stc ∧
      ((s.chan.get n).st.lb.get (Fin.ofNat 16 e.lb.toNat)).poison = false) ∧
    (∃ (n : Ch) (e : Entry) (u : StoreUpset) (bad : Bool) (s : State), (s.chan.get n).unitEntry = some e ∧
      e.st = EState.lb ∧ e.kind = RKind.amo ∧ (bad = true ∧ u = StoreUpset.none ∨
      u = StoreUpset.slot (Fin.ofNat 16 e.lb.toNat) ∧
      ((s.chan.get n).st.lb.get (Fin.ofNat 16 e.lb.toNat)).valid = true)) ∧
    (∃ (n : Ch) (e : Entry) (s : State), (s.chan.get n).unitEntry = some e ∧ e.st = EState.lb ∧ e.kind = RKind.wrp ∧
      e.purpose = Purpose.host ∧ ((s.chan.get n).st.lb.get (Fin.ofNat 16 e.lb.toNat)).poison = false) ∧
    (∃ (n : Ch) (e : Entry) (j : Fin 16) (v : BitVec (aszBits e.asz)) (errs : List SymErr) (s : State),
      (s.chan.get n).unitEntry = some e ∧ e.st = EState.sram ∧ e.kind = RKind.amo ∧
      (s.chan.get n).spareOf e = some j ∧ ((s.chan.get n).remap.get j).st = RemapSt.live ∧
      2 * (List.filter (fun (x : SymErr) => x.xor != 0 && decide (x.pos < rsLen e.twin) && !s.onMark n e x.pos) errs).length + s.erasures n e ≤ rsChecks e.twin ∧
      amoResult e.aop (BitVec.extractLsb' e.bitOff (aszBits e.asz) ((s.chan.get n).remap.get j).data) (BitVec.extractLsb' 0 (aszBits e.asz) e.data) (BitVec.extractLsb' (aszBits e.asz) (aszBits e.asz) e.data) = some v) ∧
    (∃ (n : Ch) (e : Entry) (s : State), (s.chan.get n).unitEntry = some e ∧ e.st = EState.lb ∧ e.isWrite = true ∧
      e.purpose = Purpose.host ∧ e.poison = false) :=
  ⟨⟨3, (wEntLb .amo), 0x509, (wLbe (wEnt .amo .lb)), by decide +kernel⟩,
   ⟨3, (wEntLb .stc), (wLbe (wEnt .stc .lb)), by decide +kernel⟩,
   ⟨3, (wEntLb .amo), .none, true, (wLbe (wEnt .amo .lb)), by decide +kernel⟩,
   ⟨3, (wEntLb .wrp), (wLbe (wEnt .wrp .lb)), by decide +kernel⟩,
   ⟨3, (wEnt .amo .sram), 0, 0x509, [wErr 5], wS78, by decide +kernel⟩,
   ⟨3, { wEntLb .wr64 with mask := fullMask false },
     ((wLbe { wEnt .wr64 .lb with mask := fullMask false }).updChan 3 fun c => c.updLb 2 fun x => { x with poison := true }),
     by decide +kernel⟩⟩

/-- States and operands that meet the hypotheses of the clauses of EngineTimers. -/
theorem wit_EngineTimers :
    (∃ (n : Ch) (p : Pc) (k : Cand) (s : State),
      Machine.minOn (fun (x : Cand) => x.at_) ((s.chan.get n).writeQueue p) = some k ∧
      (s.chan.get n).st.wmode.get p = false) ∧
    (∃ (n : Ch) (i : Fin 16) (s : State), ((s.chan.get n).st.lb.get i).dirty = true ∧
      ((s.chan.get n).st.lb.get i).wb = false ∧ (s.chan.get n).lbBusy i = false ∧ ∀ e ∈ (s.chan.get n).st.tt,
      e.st = EState.chain → ((s.chan.get n).st.lb.get i).line ≠ some e.loc) ∧
    (∃ (n : Ch) (b : BankIx) (s : State), ((s.chan.get n).bank b).row.isSome = true ∧
      ((s.chan.get n).bank b).expired = false ∧ (s.chan.get n).pendingHit b = false) ∧
    (∃ (n : Ch) (i : EntryIx) (e : Entry) (s : State), (s.chan.get n).entry? i = some e ∧ e.kind = RKind.hint) ∧
    (∃ (n : Ch) (k : PortK) (r : Rsv) (s : State),
      List.find? (fun (x : Rsv) => x.port == BitVec.ofNat 9 ↑k) (s.chan.get n).rsvNow = some r) :=
  ⟨⟨3, 0, ((wUp.chan.get 3).entCand (wEnt .wr64 .wait)), (wTt [wEnt .wr64 .wait]), by decide +kernel⟩,
   ⟨3, 2, wS79, by decide +kernel⟩,
   ⟨3, 9, wS80, by decide +kernel⟩,
   ⟨3, 4, (wEnt .hint .wait), (wTt [wEnt .hint .wait]), by decide +kernel⟩,
   ⟨3, 33, wRsv, wS81, by decide +kernel⟩⟩

/-- States and operands that meet the hypotheses of the clauses of TrafficControl. -/
theorem wit_TrafficControl :
    (∃ (n : Ch) (s : State), s.mgmtOn = true ∧ s.quadOn n = true) ∧
    (∃ (n : Ch) (v : Word) (s : State), s.mgmtOn = true ∧ s.quadOn n = true ∧ BitVec.getLsbD v 12 = true ∧
      (gatesAsked ((s.chan.get n).gate.settle s.now) v).pend.valid = true) ∧
    (∃ (n : Ch) (v : Word) (s : State), s.mgmtOn = true ∧ s.quadOn n = true ∧ BitVec.getLsbD v 12 = true ∧
      (gatesAsked ((s.chan.get n).gate.settle s.now) v).pend.valid = false) ∧
    (∃ (g : Gates) (l : GateList) (now : Nat), g.commit = some l ∧ g.force.en = false ∧ g.commitAt.1 < now) ∧
    (∃ (g : Gates) (l : GateList) (now : Nat), g.commit = some l ∧ g.force.en = false ∧ now ≤ g.commitAt.1) ∧
    (∃ (s : State), s.clk.pllLock = true) ∧
    (∃ (n : Ch) (v : BitVec 7) (s : State), s.quadOn n = true ∧ (s.chan.get n).st.capBus = some v) ∧
    (∃ (n : Ch) (s : State), (s.chan.get n).gate.force.en = true ∧ s.clk.pllLock = true ∧
      (s.chan.get n).gate.commit = none) :=
  ⟨⟨3, wS29, by decide +kernel⟩,
   ⟨3, 0x3C1101, wS30, by decide +kernel⟩,
   ⟨3, 0x3C1100, wUp, by decide +kernel⟩,
   ⟨{ ({} : Gates) with commit := some wGate, commitAt := (5, 7) }, wGate, 6, by decide +kernel⟩,
   ⟨{ ({} : Gates) with commit := some wGate, commitAt := (5, 7) }, wGate, 5, by decide +kernel⟩,
   ⟨wS83, by decide +kernel⟩,
   ⟨3, 33, wS85, by decide +kernel⟩,
   ⟨3, wS86, by decide +kernel⟩⟩

/-- States and operands that meet the hypotheses of the clauses of TrafficControl, continued. -/
theorem wit_TrafficControl_2 :
    (∃ (n : Ch) (l : GateList) (s : State), (s.chan.get n).gate.force.en = true ∧ s.clk.pllLock = true ∧
      (s.chan.get n).gate.commit = some l) ∧
    (∃ (n : Ch) (l : GateList) (s : State), (s.chan.get n).gate.force.en = false ∧ s.clk.pllLock = true ∧
      (s.chan.get n).gate.commit = some l ∧ l.en = true ∧ (s.chan.get n).gate.commitAt.1 ≤ s.now) ∧
    (∃ (n : Ch) (s : State), (s.chan.get n).gate.force.en = true ∧ s.clk.pllLock = true ∧
      (s.chan.get n).gate.started = true ∧ (s.chan.get n).gate.entry ≠ (s.chan.get n).gate.force.last ∧
      (s.chan.get n).gate.force.endOf (s.chan.get n).gate.entry < (s.chan.get n).gate.force.cycle) :=
  ⟨⟨3, wGate, wS87, by decide +kernel⟩,
   ⟨3, wGate, wS88, by decide +kernel⟩,
   ⟨3, wS89, by decide +kernel⟩⟩

/-- States and operands that meet the hypotheses of the clauses of SrEnterDrains. -/
theorem wit_SrEnterDrains :
    (∃ (m : Sys2Proof.Mod) (hd : ReqHdr) (s : State), Arrives s m (reqMsg 62 hd 0) ∧ s.mgmt.scrub.running = false ∧
      (∀ (n : Fin 64), ((s.chan.get n).pc.get 0).requal = none ∧ ((s.chan.get n).pc.get 1).requal = none) ∧
      s.pwr.ph = EntryPh.none) ∧
    (∃ (s : State), s.pwr.bySr = true) ∧
    (∃ (m : Sys2Proof.Mod) (p : BitVec 4) (s : State),
      List.find? (fun (x : CfgReq) => x.port == p) (s.hlm.get m).cfgq = none) ∧
    (∃ (m : Sys2Proof.Mod) (p : BitVec 4) (c : CfgReq) (s : State), (s.hlm.get m).errs = [] ∧
      List.find? (fun (x : CfgReq) => x.port == p) (s.hlm.get m).cfgq = some c ∧ c.started = false ∧ c.held = false ∧
      (s.hlm.get m).postedBefore p c.seq = false ∧ s.mgmtOn = true) :=
  ⟨⟨2, wHdr0, wUp, arrives_of (by unfold Legal; decide) (by decide +kernel), by decide +kernel⟩,
   ⟨wS92, by decide +kernel⟩,
   ⟨2, 1, wS93, by decide +kernel⟩,
   ⟨2, 1, { wCfgReq true with started := false }, wS94, by decide +kernel⟩⟩

/-- States and operands that meet the hypotheses of the clauses of RefreshAndTrackers. -/
theorem wit_RefreshAndTrackers :
    (∃ (iv : Nat), 0 < iv) ∧
    (∃ (n : Ch) (b : BankIx) (s : State), s.refreshes n = true ∧ (s.chan.get n).unitOf b = b ∧
      ↑(bankSid b) < s.map.nsid ∧ (s.chan.get n).dieRefreshes b = false ∧
      0 < (s.tim n).tREFIeff ((s.chan.get n).rf.mult.get b)) ∧
    (∃ (n : Ch) (i : SidIx) (s : State), s.refreshes n = true ∧ (s.chan.get n).st.pwr = DiePwr.active ∧
      ↑i < s.map.nsid ∧ (s.chan.get n).rf.tmpDue.contains i = false) ∧
    (∃ (n : Ch) (i : SidIx) (u : BitVec 512) (v : BitVec 8) (s : State), AwaitsTmp s n i ∧ burstValue u = some v ∧
      v ≠ 128) ∧
    (∃ (n : Ch) (i : SidIx) (u : BitVec 512) (s : State), AwaitsTmp s n i ∧ (burstValue u = none ∨
      burstValue u = some 128)) ∧
    (∃ (n : Ch) (i : SidIx) (p : Issued) (s : State), (∀ q ∈ (s.chan.get n).st.mrSent, q.1 ≠ i) ∧
      (List.filter (fun (p : Issued) => p.op == Zci.tmp && p.loc.sidIx == i) (s.chan.get n).st.hist).getLast? = some p ∧
      (s.chan.get (s.map.server n)).unsure p.at_ = true) ∧
    (∃ (n : Ch) (p : Pc) (b : BankIx) (s : State), (s.pwr.state = PwrState.pupa ∨ s.pwr.state = PwrState.toChrysalis ∧
      s.pwr.from_ = PwrState.pupa) ∧ (s.chan.get n).st.pwr = DiePwr.powerDown ∧ s.refreshes n = true ∧
      b ∈ (s.chan.get n).units s.map.nsid ∧ bankPc b = p ∧ 7 ≤ (s.chan.get n).rf.debt.get b) ∧
    (∃ (n : Ch) (p : Pc) (s : State), (s.chan.get n).rf.burst.get p = true ∧
      (s.chan.get n).st.pwr = DiePwr.powerDown ∧ (s.chan.get n).cfg.refAllBank = false ∧
      s.map.isFollower n = false) :=
  ⟨⟨64, by decide +kernel⟩,
   ⟨3, 9, (wCh id), by decide +kernel⟩,
   ⟨3, 0, (wCh id), by decide +kernel⟩,
   ⟨3, 0, (wBurst 80), 80, wS96, by decide +kernel⟩,
   ⟨3, 0, 0, wS96, by decide +kernel⟩,
   ⟨3, 0, (wIss .tmp 100), wS101, by decide +kernel⟩,
   ⟨3, 0, 9,
     ((wCh fun c => (c.updSt fun x => { x with pwr := .powerDown }).updRf fun r => { r with debt := upd r.debt 9 fun _ => 7 }).updPwr fun p => { p with state := .pupa }),
     by decide +kernel⟩,
   ⟨3, 0, wS102, by decide +kernel⟩⟩

/-- States and operands that meet the hypotheses of the clauses of RefreshAndTrackers, continued. -/
theorem wit_RefreshAndTrackers_2 :
    (∃ (n : Ch) (s : State), s.clk.pllLock = true ∧ 0 < (s.tim n).ck 26) ∧
    (∃ (n : Ch) (b : BankIx) (e : TrkEnt) (s : State),
      Machine.minOn (fun (x : TrkEnt) => x.sweepAt) (List.filter (fun (x : TrkEnt) => x.sweep) ((s.chan.get n).trk b).ents) = some e ∧
      ∀ r ∈ (s.chan.get n).rf.trf, r.bank = b → r.why ≠ TrfWhy.sweep) ∧
    (∃ (n : Ch) (b : BankIx) (s : State), ((s.chan.get n).trk b).drain = true ∧ ∀ e ∈ ((s.chan.get n).trk b).ents,
      e.sweep = false ∧ ((s.chan.get n).trk b).valid e = false) ∧
    (∃ (n : Ch) (b : BankIx) (s : State), ((s.chan.get n).trk b).drain = false ∧ ((s.chan.get n).trk b).ents ≠ []) :=
  ⟨⟨3, wS103, by decide +kernel⟩,
   ⟨3, 9, { wTrkEnt with sweep := true }, wS104, by decide +kernel⟩,
   ⟨3, 9, wS105, by decide +kernel⟩,
   ⟨3, 9, wS106, by decide +kernel⟩⟩

/-- States and operands that meet the hypotheses of the clauses of RecalPauses. -/
theorem wit_RecalPauses :
    (∃ (n : Ch) (p : Pc) (whole : Bool) (s : State), TakesSlot s n ∧ whole = decide (p = 0 ∧
      nextPhase (max s.tb ((s.chan.get n).pc.get p).slotFrom) ((2 * ↑n + ↑p) * 125000) 16000000 / 16000000 % 16 = ↑n % 16) ∧
      (∀ (q : Pc), q = p ∨ whole = true → ((s.chan.get n).pc.get q).pause = PausePh.none) ∧
      s.offlineCount + (if whole = true then 2 else 1) * (s.map.reach n).length ≤ 8) ∧
    (∃ (n : Ch) (p : Pc) (whole : Bool) (s : State), TakesSlot s n ∧ whole = decide (p = 0 ∧
      nextPhase (max s.tb ((s.chan.get n).pc.get p).slotFrom) ((2 * ↑n + ↑p) * 125000) 16000000 / 16000000 % 16 = ↑n % 16) ∧
      ((∃ (q : Pc), (q = p ∨ whole = true) ∧ ((s.chan.get n).pc.get q).pause ≠ PausePh.none) ∨
      8 < s.offlineCount + (if whole = true then 2 else 1) * (s.map.reach n).length)) ∧
    (∃ (r : PauseReq) (l : List PauseReq) (s : State), s.mgmt.fw.urgent = r :: l ∧ s.pwr.inImago = true ∧
      s.mayPause r.n r.pc = true ∧ (s.chan.get r.n).st.pwr = DiePwr.active) ∧
    (∃ (n : Ch) (p : Pc) (s : State), s.map.isFollower n = false ∧ ((s.chan.get n).pc.get p).chPause = false ∧
      s.pcClosed n p = true) ∧
    (∃ (n : Ch) (p : Pc) (s : State), ((s.chan.get n).pc.get p).pause = PausePh.measure) ∧
    (∃ (l : Lane) (m : LaneMeas) (a : Eye) (b : Eye) (c : Eye) (d : Eye), l.samplerB = false ∧
      (trackEye l.eyeA m.a).1 = some (a, b) ∧ (trackEye l.eyeB m.b).1 = some (c, d)) ∧
    (∃ (l : Lane) (m : LaneMeas) (a : Eye) (b : Eye) (c : Eye) (d : Eye), l.samplerB = false ∧
      (trackEye l.eyeA m.a).1 = some (a, b) ∧ (trackEye l.eyeB m.b).1 = some (c, d) ∧
      min (eyeWidth c) (eyeWidth d) < min (eyeWidth a) (eyeWidth b) + 4) ∧
    (∃ (l : Lane) (m : LaneMeas) (a : Eye) (b : Eye) (c : Eye) (d : Eye), l.samplerB = false ∧
      (trackEye l.eyeA m.a).1 = some (a, b) ∧ (trackEye l.eyeB m.b).1 = some (c, d) ∧
      min (eyeWidth a) (eyeWidth b) + 4 ≤ min (eyeWidth c) (eyeWidth d)) :=
  ⟨⟨3, 1, false, (wOff 7), takesSlot_of (by decide +kernel), by decide +kernel⟩,
   ⟨3, 1, false, (wOff 8), takesSlot_of (by decide +kernel), by decide +kernel⟩,
   ⟨{ n := 3, pc := some 1, sched := false }, [],
     ((wCh id).updFw fun f => { f with urgent := [{ n := 3, pc := some 1, sched := false }] }), by decide +kernel⟩,
   ⟨3, 1, wS109, by decide +kernel⟩,
   ⟨3, 1, wS107, by decide +kernel⟩,
   ⟨{ rxTap := 30, disagree := 2, eyeA := wEye, eyeB := ⟨10, 30⟩ },
     { lane := 4, a := [some wEye, some ⟨10, 41⟩], b := [some ⟨10, 30⟩, some ⟨10, 31⟩], tx := [] }, wEye, ⟨10, 41⟩,
     ⟨10, 30⟩, ⟨10, 31⟩, by decide +kernel⟩,
   ⟨{ rxTap := 30, disagree := 2, eyeA := wEye, eyeB := ⟨10, 30⟩ },
     { lane := 4, a := [some wEye, some ⟨10, 41⟩], b := [some ⟨10, 30⟩, some ⟨10, 31⟩], tx := [] }, wEye, ⟨10, 41⟩,
     ⟨10, 30⟩, ⟨10, 31⟩, by decide +kernel⟩,
   ⟨{ rxTap := 30, disagree := 2, eyeA := ⟨10, 30⟩, eyeB := wEye },
     { lane := 4, a := [some ⟨10, 30⟩, some ⟨10, 31⟩], b := [some wEye, some ⟨10, 40⟩], tx := [] }, ⟨10, 30⟩, ⟨10,
     31⟩, wEye, ⟨10, 40⟩, by decide +kernel⟩⟩

/-- States and operands that meet the hypotheses of the clauses of RecalPauses, continued. -/
theorem wit_RecalPauses_2 :
    (∃ (n : Ch) (p : Pc) (s : State), s.map.isJoined n = false ∧ ((s.chan.get n).pc.get p).chPause = false ∧
      ((s.chan.get n).pc.get p).pause = PausePh.apply ∧ ((s.chan.get n).pc.get p).sel = none) ∧
    (∃ (n : Ch) (p : Pc) (lane : Fin 36) (i : Fin 2) (s : State), ((s.chan.get n).pc.get p).requal = some lane ∧
      s.map.nrow * s.map.nsid * 256 ≤ ((s.chan.get n).pc.get p).requalNext ∧
      ((s.chan.get n).pc.get p).requalWait = [] ∧ s.mgmt.fw.st ≠ FwState.restarting ∧
      (∀ e ∈ (s.chan.get (s.map.server n)).st.tt, e.purpose = Purpose.host) ∧
      (((s.chan.get n).pc.get p).spares.get i).en = true ∧
      (((s.chan.get n).pc.get p).spares.get i).lane.toNat = ↑lane) :=
  ⟨⟨3, 1, wS110, by decide +kernel⟩,
   ⟨3, 1, 4, 0, wS111, by decide +kernel⟩⟩

/-- States and operands that meet the hypotheses of the clauses of EngineRecovery. -/
theorem wit_EngineRecovery :
    (∃ (m : Sys2Proof.Mod) (n : Ch) (i : EntryIx) (s : State), (s.chan.get n).st.notices.contains (m, i) = false ∧
      ((s.chan.get n).entry? i).isSome = true) ∧
    (∃ (m : Sys2Proof.Mod) (n : Ch) (i : EntryIx) (x : TagRec) (s : State), (s.chan.get n).st.notices.contains (m,
      i) = true ∧
      List.find? (fun (q : TagRec) => q.ch == some n && q.idx == some i && q.owes) (s.hlm.get m).tags = some x) ∧
    (∃ (m : Sys2Proof.Mod) (n : Ch) (i : EntryIx) (s : State), (s.chan.get n).st.notices.contains (m, i) = true ∧
      List.find? (fun (q : TagRec) => q.ch == some n && q.idx == some i && q.owes) (s.hlm.get m).tags = none) ∧
    (∃ (n : Ch) (s : State), s.quadOn n = true ∧ (s.chan.get (s.map.server n)).st.recov = Recov.none ∧ ∀ (u : Nat),
      (s.chan.get (s.map.server n)).st.step3 = some u → u + 12 < s.now) ∧
    (∃ (n : Ch) (u : Nat) (s : State), s.quadOn n = true ∧ ((s.chan.get (s.map.server n)).st.recov = Recov.engine u ∨
      (s.chan.get (s.map.server n)).st.recov = Recov.none ∧ (s.chan.get (s.map.server n)).st.step3 = some u ∧
      s.now ≤ u + 12)) ∧
    (∃ (n : Ch) (f : Nat) (s : State), (s.chan.get (s.map.server n)).st.recov = Recov.caerr f) ∧
    (∃ (n : Ch) (f : Nat) (r : Nat) (s : State), (s.chan.get (s.map.server n)).st.recov = Recov.caerrWait f r) ∧
    (∃ (n : Ch) (s : State), s.engineRuns n = true ∧ (∀ (u : Nat), (s.chan.get n).st.lastRecov = some u →
      u + 1000000000 ≤ s.now) ∧ ((s.chan.get n).anyReady = true ∨
      (s.chan.get n).anyDue s.map.nsid (s.actOpen n) = true)) :=
  ⟨⟨2, 3, 4, (wTt [wEnt .rd64 .wait]), by decide +kernel⟩,
   ⟨2, 3, 4, wTagIx, ((wSt fun x => { x with notices := [(2, 4)] }).updHlm 2 fun h => { h with tags := [wTagIx] }),
     by decide +kernel⟩,
   ⟨2, 3, 4, ((wSt fun x => { x with notices := [(2, 4)] })), by decide +kernel⟩,
   ⟨3, wS112, by decide +kernel⟩,
   ⟨3, 40, ((wSt fun x => { x with step3 := some 40, tt := [wEnt .rd64 .wait] }).advance 52), by decide +kernel⟩,
   ⟨3, 40, ((wCh fun c => c.updSt fun x => { x with recov := .caerr 40 }).advance 60), by decide +kernel⟩,
   ⟨3, 40, 50, wS114, by decide +kernel⟩,
   ⟨3, wS115, by decide +kernel⟩⟩

/-- States and operands that meet the hypotheses of the clauses of EngineRecovery, continued. -/
theorem wit_EngineRecovery_2 :
    (∃ (n : Ch) (s : State), s.quadOn (s.map.server n) = true ∧ ∀ (u : Nat),
      (s.chan.get (s.map.server n)).st.lastRecov = some u → u + 1000000000 ≤ s.now) ∧
    (∃ (n : Ch) (u : Nat) (s : State), s.quadOn (s.map.server n) = true ∧
      (s.chan.get (s.map.server n)).st.lastRecov = some u ∧ s.now < u + 1000000000) ∧
    (∃ (n : Ch) (u : Nat) (s : State), (s.chan.get n).st.recov = Recov.engine u ∧ s.map.isFollower n = false ∧
      (∀ e ∈ (s.chan.get n).st.tt, e.st ≠ EState.chain) ∧ (s.chan.get n).repair = none) ∧
    (∃ (n : Ch) (k : Mb) (tag : BitVec 2) (c : FwCmd) (s : State), s.map.isJoined n = false ∧
      (s.chan.get n).inReset = true ∧ s.quadOn n = true ∧ (s.chan.get n).resetBy = [(k, tag)] ∧
      List.find? (fun (x : FwCmd) => decide (x.tag = tag)) (s.mb k).cmds = some c ∧
      (s.chan.get n).st.pwr = DiePwr.selfRefresh ∧ s.pwr.trip = false) ∧
    (∃ (n : Ch) (s : State), s.map.isJoined n = false ∧ (s.chan.get n).inReset = true ∧ s.quadOn n = true ∧
      (s.chan.get n).train ≠ 1) ∧
    (∃ (n : Ch) (k : Mb) (tag : BitVec 2) (c : FwCmd) (s : State), s.map.isJoined n = false ∧
      (s.chan.get n).inReset = true ∧ s.quadOn n = true ∧ (s.chan.get n).train = 1 ∧
      (s.chan.get n).resetBy = [(k, tag)] ∧
      List.find? (fun (x : FwCmd) => decide (x.tag = tag)) (s.mb k).cmds = some c) :=
  ⟨⟨3, wUp, by decide +kernel⟩,
   ⟨3, 7,
     ((wSt fun x => { x with lastRecov := some 7, tt := [wEnt .rd64 .wait] }).updHlm 2 fun h => { h with tags := [wTagIx], ingress := [{ wRqOf .rd64 with ch := 3 }] }),
     by decide +kernel⟩,
   ⟨3, 40, wS116, by decide +kernel⟩,
   ⟨3, 3, 1, (wCmd 1 wCmdWord),
     ((wTaken wCmdWord).updChan 3 fun c => { (c.updSt fun x => { x with pwr := .selfRefresh }) with inReset := true, resetBy := [(3, 1)] }),
     by decide +kernel⟩,
   ⟨3, wS117, by decide +kernel⟩,
   ⟨3, 3, 1, (wCmd 1 wCmdWord),
     ((wTaken wCmdWord).updChan 3 fun c => { (c.updSt fun x => { x with pwr := .selfRefresh }) with inReset := true, train := 1, resetBy := [(3, 1)] }),
     by decide +kernel⟩⟩

/-- States and operands that meet the hypotheses of the clauses of Maintenance. -/
theorem wit_Maintenance :
    (∃ (n : Ch) (l : Loc) (s : State), (s.chan.get n).share = true ∧ l.row.toNat < s.map.nrow ∧
      l.sid.toNat < s.map.nsid ∧ s.mgmt.scrub.start ≤ s.map.hostAddr n l ∧
      s.map.hostAddr n l < s.mgmt.scrub.start + s.mgmt.scrub.len ∧ (s.chan.get n).visited.contains l = false ∧
      (s.chan.get n).canTake s.now (s.chan.get n).cfg.maintCls = true) ∧
    (∃ (n : Ch) (s : State), (s.chan.get n).share = true ∧ (s.chan.get n).st.tt.any Entry.isScrub = false ∧
      s.shareSize n ≤ (s.chan.get n).visited.length) ∧
    (∃ (k : Mb) (s : State), s.mgmt.scrub.running = true ∧ s.mgmt.scrub.mb = some k ∧
      s.mgmt.fw.st ≠ FwState.restarting ∧ ∀ (n : Fin 64), (s.chan.get n).share = false ∧
      (s.chan.get n).st.tt.any Entry.isScrub = false) ∧
    (∃ (n : Ch) (i : Fin 16) (e : Entry) (j : RemapJob) (k : Mb) (tag : BitVec 2) (s : State),
      List.find? (fun (x : Entry) => x.purpose == Purpose.remapFill i && x.st == EState.sram && x.kind == RKind.mwr) (s.chan.get n).st.tt = some e ∧
      (∀ x ∈ (s.chan.get n).st.tt, x.st ≠ EState.chain) ∧
      List.find? (fun (x : RemapJob) => x.n == n && x.i == i && !x.release) s.mgmt.fw.remapJobs = some j ∧
      j.by_ = some (k, tag) ∧ (List.find? (fun (x : FwCmd) => decide (x.tag = tag)) (s.mb k).cmds).isSome = true) ∧
    (∃ (n : Ch) (r : Repair) (s : State), (s.chan.get n).repair = some r ∧ r.phase = 7 ∧ r.hard = false ∧
      r.failed = false) ∧
    (∃ (n : Ch) (r : Repair) (s : State), (s.chan.get n).repair = some r ∧ r.phase = 7 ∧ r.hard = true ∧
      r.failed = false) ∧
    (∃ (n : Ch) (r : Repair) (s : State), (s.chan.get n).repair = some r ∧ r.hard = false ∧ r.failed = false) ∧
    (∃ (n : Ch) (r : Repair) (s : State), (s.chan.get n).repair = some r ∧ r.hard = true ∧ r.failed = false) :=
  ⟨⟨3, wLoc,
    ((wChan fun c => { c with share := true }).updScrub fun b => { b with running := true, mode := 2, start := 0, len := 0x1000000000 }),
    by decide +kernel⟩,
   ⟨3, wS118, by decide +kernel⟩,
   ⟨3, ((wMb 3 id).updScrub fun b => { b with running := true, mb := some 3, scanned := 4, len := 256 }), by decide +kernel⟩,
   ⟨3, 2, wFill, { n := 3, i := 2, loc := wLoc, by_ := some (3, 1), release := false, waits := false }, 3, 1,
     (((wTaken 0).updChan 3 fun c => c.updSt fun x => { x with tt := [wEnt .rd64 .wait |> fun e => { e with idx := 7 }, wFill] }).updFw fun f => { f with remapJobs := [{ n := 3, i := 2, loc := wLoc, by_ := some (3, 1), release := false, waits := false }] }),
     by decide +kernel⟩,
   ⟨3, (wRep false), wS119, by decide +kernel⟩,
   ⟨3, (wRep true), wS120, by decide +kernel⟩,
   ⟨3, (wRep false), wS119, by decide +kernel⟩,
   ⟨3, (wRep true), wS120, by decide +kernel⟩⟩

/-- States and operands that meet the hypotheses of the clauses of PairTransition. -/
theorem wit_PairTransition :
    (∃ (c : PairIx) (j : TwinJob) (s : State),
      List.find? (fun (x : TwinJob) => x.c == c) s.mgmt.fw.twinJobs = some j ∧ s.map.trans.getLsbD ↑c = false ∧
      s.pairIdle c = true) ∧
    (∃ (c : PairIx) (n : Ch) (s : State), s.map.trans.getLsbD ↑c = true ∧ n ≠ leader c ∧ n ≠ follower c ∧ ∀ (k : Ch),
      k = leader c ∨ k = follower c → s.initDone k = true) ∧
    (∃ (c : PairIx) (s : State), s.map.trans.getLsbD ↑c = true ∧ ∃ (k : Ch), (k = leader c ∨ k = follower c) ∧
      s.initDone k = false) ∧
    (∃ (c : PairIx) (j : TwinJob) (k : Mb) (tag : BitVec 2) (s : State), s.map.trans.getLsbD ↑c = true ∧ (∀ (k : Ch),
      k = leader c ∨ k = follower c → s.initDone k = true) ∧
      List.find? (fun (x : TwinJob) => x.c == c) s.mgmt.fw.twinJobs = some j ∧ j.by_ = some (k, tag) ∧
      (List.find? (fun (x : FwCmd) => decide (x.tag = tag)) (s.mb k).cmds).isSome = true) :=
  ⟨⟨3, { c := 3, entry := true, by_ := none }, wS123, by decide +kernel⟩,
   ⟨3, 7, ((((wUp.updMap fun m => { m with trans := 8 }).writeLine 3 wLoc 5).writeLine 35 wLoc 5).writeLine 7 wLoc 5),
     by decide +kernel⟩,
   ⟨3, (((wUp.updMap fun m => { m with trans := 8 }).updChan 3 fun c => { c with init := some 5 })), by decide +kernel⟩,
   ⟨3, { c := 3, entry := true, by_ := some (3, 1) }, 3, 1,
     (((wTaken 0).updMap fun m => { m with trans := 8 }).updFw fun f => { f with twinJobs := [{ c := 3, entry := true, by_ := some (3, 1) }] }),
     by decide +kernel⟩⟩

/-- States and operands that meet the hypotheses of the clauses of Thermal. -/
theorem wit_Thermal :
    (∃ (n : Ch) (s : State), s.quadOn n = true) ∧
    (∃ (n : Ch) (u : Nat) (s : State), (s.chan.get n).st.tripAt = some u ∧
      (s.chan.get n).st.pwr ≠ DiePwr.selfRefresh ∧ (s.chan.get (s.map.server n)).st.pwr ≠ DiePwr.selfRefresh ∧
      (s.chan.get (s.map.server n)).st.recov = Recov.none ∧ (s.chan.get (s.map.server n)).repairRuns = false) ∧
    (∃ (s : State), s.pwr.trip = true ∧ s.pwr.state = PwrState.imago) ∧
    (∃ (n : Ch) (u : Nat) (s : State), (s.chan.get n).st.crit = true ∧ (s.chan.get n).st.critCoolAt = some u ∧
      s.quadOn n = true) ∧
    (∃ (s : State), s.modelRuns = true) ∧
    (∃ (u : Nat) (s : State), s.mgmt.therm.coolSince = some u ∧ s.modelRuns = true) :=
  ⟨⟨3, wUp, by decide +kernel⟩,
   ⟨3, 70, wS124, by decide +kernel⟩,
   ⟨wS125, by decide +kernel⟩,
   ⟨3, 70, wS126, by decide +kernel⟩,
   ⟨((wFw id).updTherm fun t => { t with pendFloor := some (9, 50), pendThr := some (70, 80) }), by decide +kernel⟩,
   ⟨70, ((wFw id).updTherm fun t => { t with coolSince := some 70, budget := 3 }), by decide +kernel⟩⟩

/-- States and operands that meet the hypotheses of the clauses of PowerEntry. -/
theorem wit_PowerEntry :
    (∃ (s : State), s.mgmtOn = true ∧ s.mgmt.fw.st = FwState.ready ∧ s.owesPower = false ∧
      s.pwr.state = PwrState.imago ∧ (s.pwr.target = 1 ∨ s.pwr.target = 2) ∧ s.pwr.lossSeq = none ∧
      s.pwr.lossHold = false ∧ s.clk.pllLock = true) ∧
    (∃ (s : State), s.mgmtOn = true ∧ s.mgmt.fw.st = FwState.ready ∧ s.owesPower = false ∧
      s.pwr.state = PwrState.chrysMgmt ∧ s.pwr.target = 2 ∧ s.pwr.lossHold = false) ∧
    (∃ (s : State), s.pwr.ph = EntryPh.defer ∧ s.pwr.bySr = false ∧ s.quietNow = true) ∧
    (∃ (s : State), s.pwr.ph = EntryPh.defer ∧ s.pwr.bySr = false) ∧
    (∃ (s : State), s.pwr.ph = EntryPh.defer ∧ s.pwr.bySr = true ∧ s.pwr.trip = false ∧ s.pathIdle = true ∧
      s.workIdle = true ∧ ∀ (m : Fin 20), (s.hlm.get m).srBlocked = true ∨ (s.hlm.get m).link ≠ LinkState.active) ∧
    (∃ (s : State), s.pwr.ph = EntryPh.step 1 ∧ s.drained = true) ∧
    (∃ (s : State), s.pwr.ph = EntryPh.step 2) ∧
    (∃ (s : State), s.pwr.ph = EntryPh.step 3 ∧ s.pwr.bySr = false) :=
  ⟨⟨wS127, by decide +kernel⟩,
   ⟨wS129, by decide +kernel⟩,
   ⟨wS130, by decide +kernel⟩,
   ⟨wS132, by decide +kernel⟩,
   ⟨((wPw fun p => { p with ph := .defer, bySr := true }).mapHlm fun _ h => { h with srBlocked := true }), by decide +kernel⟩,
   ⟨((wPw fun p => { p with ph := .step 1, state := .toPupa }).updChan 3 fun c => c.updSt fun x => { x with lb := upd x.lb 2 fun _ => { wLb with dirty := true } }),
     by decide +kernel⟩,
   ⟨((wPw fun p => { p with ph := .step 2, state := .toPupa }).updChan 3 fun c => (c.updTrk 9 fun t => { t with ents := [wTrkEnt] }).updSt fun x => { x with rsv := [wRsv] }),
     by decide +kernel⟩,
   ⟨(((wPw fun p => { p with ph := .step 3, state := .toPupa }).updMap fun m => { m with mapped := 8 }).updChan 3 fun c => c.updRf fun r => { r with debt := upd (Vector.replicate 128 (-8)) 9 fun _ => 2, owed := upd r.owed 9 fun _ => [4, 5] }),
     by decide +kernel⟩⟩

/-- States and operands that meet the hypotheses of the clauses of PowerEntry, continued. -/
theorem wit_PowerEntry_2 :
    (∃ (s : State), s.pwr.ph = EntryPh.step 4 ∧ ∀ (m : Sys2Proof.Mod), s.mayPark m = true) ∧
    (∃ (s : State), s.pwr.ph = EntryPh.step 5) ∧
    (∃ (s : State), s.pwr.ph = EntryPh.step 6 ∧ s.pwr.tripPend = false ∧ s.pwr.wakePend = none ∧
      s.pwr.state = PwrState.toPupa ∧ ∀ (q : Fin 16), s.domUsable (quadDom ↑q) = true ∨
      s.pwr.dom.get (quadDom ↑q) = 0) ∧
    (∃ (s : State), s.pwr.ph = EntryPh.step 6 ∧ s.pwr.tripPend = false ∧ s.pwr.wakePend = none ∧
      s.pwr.state ≠ PwrState.toPupa) ∧
    (∃ (m : Sys2Proof.Mod) (s : State), s.pwr.ph = EntryPh.step 4 ∧ (s.hlm.get m).link = LinkState.active ∧
      s.pwr.bySr = true) ∧
    (∃ (m : Sys2Proof.Mod) (s : State), s.pwr.ph = EntryPh.step 4 ∧ (s.hlm.get m).link = LinkState.active ∧
      s.pwr.bySr = false) :=
  ⟨⟨wS133, by decide +kernel⟩,
   ⟨wS134, by decide +kernel⟩,
   ⟨wS136, by decide +kernel⟩,
   ⟨wS137, by decide +kernel⟩,
   ⟨2, wS138, by decide +kernel⟩,
   ⟨2, wS133, by decide +kernel⟩⟩

/-- States and operands that meet the hypotheses of the clauses of Waking. -/
theorem wit_Waking :
    (∃ (i : Instr) (m : Sys2Proof.Mod) (src : BitVec 4) (k : Nat) (s : State), (i = Instr.flitActivityWake m ∧
      src = 1 ∨ i = Instr.sidebandExitRequest m ∧ src = 3 ∨ i = Instr.wakePattern m k ∧ 24 ≤ k ∧
      s.pwr.patEn.getLsbD ↑m = true ∧ s.pwr.state ≠ PwrState.pupa ∧ src = 2) ∧ (s.hlm.get m).usable = true ∧
      s.pwr.eye.inVisit = false ∧ s.pwr.lossHold = false ∧ (s.pwr.state = PwrState.pupa ∨
      s.pwr.state = PwrState.chrysalis ∨ s.pwr.state = PwrState.chrysMgmt)) ∧
    (∃ (k : Nat), k < 8) ∧
    (∃ (s : State), s.pwr.state = PwrState.chrysalis ∧ s.pwr.mgmtWake = false) ∧
    (∃ (s : State), s.clk.pllEnabled = true ∧ s.clk.pllLock = false ∧ s.clk.refclkOk = true ∧
      s.pwr.eye.inVisit = false) ∧
    (∃ (d : Fin 39) (s : State), s.powering d = true ∧ s.pwr.dom.get d < 4 ∧ (s.pwr.dom.get d = 1 → 2 ≤ ↑d →
      s.clk.pllLock = true) ∧ (d = 1 → s.pwr.dom.get 1 < 3)) ∧
    (∃ (s : State), s.boot.ph ≠ BootPh.cold 7) ∧
    (∃ (s : State), s.powering 1 = true ∧ s.pwr.dom.get 1 = 3 ∧ s.pwr.state ≠ PwrState.chrysalis) ∧
    (∃ (s : State), s.pwr.state = PwrState.chrysalis ∧ s.pwr.mgmtWake = true ∧ s.pwr.dom.get 1 = 3 ∧
      s.pwr.lossHold = false) :=
  ⟨⟨(.flitActivityWake 2), 2, 1, 0, wS139, by decide +kernel⟩,
   ⟨7, by decide +kernel⟩,
   ⟨wS141, by decide +kernel⟩,
   ⟨wS142, by decide +kernel⟩,
   ⟨5, wS143, by decide +kernel⟩,
   ⟨wS145, by decide +kernel⟩,
   ⟨wS146, by decide +kernel⟩,
   ⟨wS147, by decide +kernel⟩⟩

/-- States and operands that meet the hypotheses of the clauses of Waking, continued. -/
theorem wit_Waking_2 :
    (∃ (m : Sys2Proof.Mod) (s : State), s.clk.pllLock = true ∧ (s.hlm.get m).link = LinkState.parked ∧
      s.pwr.state = PwrState.waking ∧ s.allUp = true ∧ s.pwr.trip = false) ∧
    (∃ (m : Sys2Proof.Mod) (s : State), s.clk.pllLock = true ∧ (s.hlm.get m).link = LinkState.parked ∧
      s.pwr.state = PwrState.imago) :=
  ⟨⟨2, ((wPw fun p => { p with state := .waking }).updHlm 2 fun h => { h with link := .parked, srBlocked := true }),
    by decide +kernel⟩,
   ⟨2, ((wPw fun p => { p with from_ := .pupa }).updHlm 2 fun h => { h with link := .parked }), by decide +kernel⟩⟩

/-- States and operands that meet the hypotheses of the clauses of EyespotAndLoss. -/
theorem wit_EyespotAndLoss :
    (∃ (s : State), (s.pwr.state = PwrState.chrysalis ∨ s.pwr.state = PwrState.chrysMgmt) ∧
      s.pwr.eye.inVisit = false) ∧
    (∃ (s : State), s.pwr.eye.inVisit = true ∧ s.clk.refclkOk = true) ∧
    (∃ (i : Instr) (c : BitVec 1) (s : State), (i = Instr.refclkLoss ∧ c = 0 ∨ i = Instr.pllLockLoss ∧ c = 1) ∧
      s.clk.pllLock = true ∧ s.pwr.lossSeq = none) ∧
    (∃ (c : BitVec 1) (s : State), s.pwr.lossSeq = some c) ∧
    (∃ (s : State), s.boot.ph ≠ BootPh.cold 6 ∧ (s.boot.ph = BootPh.warm 3 → s.clk.refclkOk = true)) ∧
    (∃ (s : State), s.boot.ph = BootPh.cold 6 ∧ s.clk.refclkOk = false ∧ s.clk.pllLock = false) ∧
    (∃ (s : State), s.clk.pllEnabled = true ∧ s.clk.pllLock = false ∧ s.pwr.state = PwrState.chrysMgmt ∧
      s.pwr.eye.inVisit = true) :=
  ⟨⟨wS141, by decide +kernel⟩,
   ⟨wS148, by decide +kernel⟩,
   ⟨.refclkLoss, 0, ((wPw id).updHlm 2 fun h => { h with posted := [wRq], tags := [wTag3] }), by decide +kernel⟩,
   ⟨1, wS150, by decide +kernel⟩,
   ⟨wUp, by decide +kernel⟩,
   ⟨wS151, by decide +kernel⟩,
   ⟨((wUp.updClk fun k => { k with pllEnabled := true }).updPwr fun p => { p with state := .chrysMgmt, eye := { p.eye with inVisit := true } }),
     by decide +kernel⟩⟩

/-- States and operands that meet the hypotheses of the clauses of Resets. -/
theorem wit_Resets :
    (∃ (s : State), s.boot.pwrgood = false) ∧
    (∃ (s : State), s.boot.ph = BootPh.up) ∧
    (∃ (s : State), s.boot.rstN = false ∧ s.boot.ph = BootPh.cold 2 ∧ s.boot.readAt = 24) ∧
    (∃ (s : State), s.boot.rstN = false ∧ s.boot.ph = BootPh.warm 1 ∧ s.boot.w1Done = true ∧ s.boot.armed = none ∧
      s.boot.launchDue = false ∧ s.postedPending = false) ∧
    (∃ (u : Nat) (s : State), s.mgmt.fw.resetAt = some u ∧ s.boot.ph = BootPh.up) ∧
    (∃ (i : Instr) (why : BitVec 24) (s : State), (i = Instr.pririWatchdog ∧ why = 1 ∨ i = Instr.fwSramUncorrectable ∧
      why = 4) ∧ s.mgmtOn = true ∧ s.mgmt.fw.st ≠ FwState.restarting ∧ s.widerReset = false) ∧
    (∃ (s : State), s.mgmt.fw.st = FwState.restarting ∧ s.mgmt.fw.commitOn = none ∧ s.boot.ph ≠ BootPh.warm 1 ∧
      s.boot.ph ≠ BootPh.warm 2) :=
  ⟨⟨State.reset, by decide +kernel⟩,
   ⟨wUp, by decide +kernel⟩,
   ⟨((wBoot fun b => { b with rstN := false, ph := .cold 2, readAt := 24 }).updClk fun k => { k with trims := true }),
     by decide +kernel⟩,
   ⟨wS152, by decide +kernel⟩,
   ⟨70, wS153, by decide +kernel⟩,
   ⟨.pririWatchdog, 1,
     ((wFw id).updMgmt fun g => { g with sem := upd (upd g.sem 3 fun _ => some 0x600) 4 fun _ => some 0x21 }), by decide +kernel⟩,
   ⟨((wMb 3 fun b => { b with cmds := [wCmd 1 wCmdWord], answers := [{ opcode := 0x7F, tag := 0, status := 0, result := 2 }] }).updFw fun f => { f with st := .restarting }),
     by decide +kernel⟩⟩

/-- States and operands that meet the hypotheses of the clauses of BootSteps. -/
theorem wit_BootSteps :
    (∃ (s : State), s.boot.ph = BootPh.cold 1 ∧ s.domOn 0 = true) ∧
    (∃ (s : State), s.boot.ph = BootPh.cold 2 ∧ s.boot.readAt = 24 ∧ s.boot.rstN = true) ∧
    (∃ (s : State), s.boot.ph = BootPh.cold 2 ∧ s.boot.readAt < 24 ∨ s.boot.ph = BootPh.cold 5 ∧
      s.boot.readAt < 1049) ∧
    (∃ (s : State), s.boot.ph = BootPh.cold 6 ∧ s.clk.pllLock = true ∧ s.domOn 2 = true) ∧
    (∃ (s : State), s.boot.ph = BootPh.cold 12 ∧ s.allInit = true) ∧
    (∃ (s : State), s.boot.ph = BootPh.warm 2 ∧ s.postedPending = true ∨ (s.boot.ph = BootPh.cold 12 ∨
      s.boot.ph = BootPh.warm 7) ∧ s.allInit = false ∨ s.boot.ph = BootPh.warm 6 ∧ s.pwr.trip = true) ∧
    (∃ (s : State), s.boot.ph = BootPh.warm 2 ∧ s.postedPending = false) ∧
    (∃ (s : State), s.boot.ph = BootPh.warm 6 ∧ s.pwr.trip = false ∧ s.map.joined = 0 ∧ ∀ (n : Fin 64),
      (s.chan.get n).init = none) :=
  ⟨⟨((wBoot fun b => { b with ph := .cold 1 }).updPwr fun p => { p with dom := upd p.dom 0 fun _ => 4 }), by decide +kernel⟩,
   ⟨wS154, by decide +kernel⟩,
   ⟨wS155, by decide +kernel⟩,
   ⟨wS157, by decide +kernel⟩,
   ⟨((wClk.updBoot fun b => { b with ph := .cold 12 }).writeLine 3 wLoc 5), by decide +kernel⟩,
   ⟨((wClk.updBoot fun b => { b with ph := .warm 2 }).updMgmt fun g => { g with postAon := { g.postAon with pend := some (4, 5) } }),
     by decide +kernel⟩,
   ⟨wS158, by decide +kernel⟩,
   ⟨wS159, by decide +kernel⟩⟩

/-- States and operands that meet the hypotheses of the clauses of BootSteps, continued. -/
theorem wit_BootSteps_2 :
    (∃ (s : State), s.boot.ph = BootPh.warm 7 ∧ s.allInit = true) ∧
    (∃ (s : State), s.boot.ph = BootPh.cold 7 ∧ s.boot.stagReq = true ∧ s.boot.groupRun = false) ∧
    (∃ (d : Fin 39) (s : State), s.boot.ph = BootPh.cold 7 ∧ s.boot.groupRun = true ∧ s.pwr.lossHold = false ∧
      (d ∈ List.map modDom (groupMod s.boot.group) ∨ d = quadDom (2 * s.boot.group) ∨
      d = quadDom (2 * s.boot.group + 1))) ∧
    (∃ (s : State), s.boot.ph ≠ BootPh.cold 7) ∧
    (∃ (s : State), s.boot.ph = BootPh.cold 7 ∧ s.boot.group < 8 ∧ s.boot.stagReq = false) ∧
    (∃ (s : State), s.boot.ph = BootPh.cold 7 ∧ s.boot.stagReq = true ∧ s.boot.groupRun = false ∧
      s.boot.launch = none ∧ s.boot.group < 8) ∧
    (∃ (s : State), s.boot.groupRun = true ∧ s.boot.launch = none ∧ s.boot.group < 8 ∧ s.groupOn = true) :=
  ⟨⟨(((wChan fun c => { c with init := some 99999999 }).updBoot fun b => { b with ph := .warm 7 }).writeLine 3 wLoc 5),
    by decide +kernel⟩,
   ⟨wS160, by decide +kernel⟩,
   ⟨26, wS161, by decide +kernel⟩,
   ⟨wS162, by decide +kernel⟩,
   ⟨wS163, by decide +kernel⟩,
   ⟨wS164, by decide +kernel⟩,
   ⟨wS165, by decide +kernel⟩⟩

/-- States and operands that meet the hypotheses of the clauses of ImageDelivery. -/
theorem wit_ImageDelivery :
    (∃ (who : Ident) (v : Word) (s : State), s.mgmtOn = true ∧ (s.mgmt.fw.st = FwState.rom ∨
      s.mgmt.fw.st = FwState.loader) ∧ s.mgmt.fw.started = false ∧ (s.boot.deliverer = none ∨
      s.boot.deliverer = some who) ∧ s.boot.stageOpen = true ∧ s.boot.verifying = false ∧
      BitVec.extractLsb' 0 16 v ≠ 0 ∧
      (BitVec.extractLsb' 0 16 v = if s.boot.deliverer.isSome = true then BitVec.extractLsb' 0 16 s.boot.done + 1 else 1) ∧
      blockStatus s.boot.stream (s.stageBytes (min (BitVec.toNat (s.stageWord 4)) 65472)) (BitVec.toNat (s.stageWord 4)) (BitVec.toNat (s.stageWord 8)) = 1) ∧
    (∃ (who : Ident) (v : Word) (s : State), s.mgmtOn = true ∧ (s.mgmt.fw.st = FwState.rom ∨
      s.mgmt.fw.st = FwState.loader) ∧ s.mgmt.fw.started = false ∧ (s.boot.deliverer = none ∨
      s.boot.deliverer = some who) ∧ s.boot.stageOpen = true ∧ s.boot.verifying = false ∧
      BitVec.extractLsb' 0 16 v ≠ 0 ∧
      (BitVec.extractLsb' 0 16 v = if s.boot.deliverer.isSome = true then BitVec.extractLsb' 0 16 s.boot.done + 1 else 1) ∧
      blockStatus s.boot.stream (s.stageBytes (min (BitVec.toNat (s.stageWord 4)) 65472)) (BitVec.toNat (s.stageWord 4)) (BitVec.toNat (s.stageWord 8)) ≠ 1) ∧
    (∃ (who : Ident) (w : Ident) (s : State), s.mgmtOn = true ∧ (s.mgmt.fw.st = FwState.rom ∨
      s.mgmt.fw.st = FwState.loader) ∧ s.boot.deliverer = some w ∧ w ≠ who) ∧
    (∃ (s : State), s.boot.verifying = true ∧ s.boot.ph = BootPh.cold 10 ∧ s.mgmt.fw.commitOn = none) ∧
    (∃ (w : Ident) (s : State), s.boot.deliverer = some w ∧ s.boot.verifying = false) :=
  ⟨⟨0x21, 1, (wStage [(4, 4, 8), (0x40, 4, 0x12345678), (0x44, 4, 9)]), by decide +kernel⟩,
   ⟨0x21, 1, (wStage [(4, 4, 6)]), by decide +kernel⟩,
   ⟨0x21, 0x22, ((wStage []).updBoot fun b => { b with deliverer := some 0x22 }), by decide +kernel⟩,
   ⟨wS166, by decide +kernel⟩,
   ⟨0x21, wS167, by decide +kernel⟩⟩

/-- States and operands that meet the hypotheses of the clauses of Fuses. -/
theorem wit_Fuses :
    (∃ (s : State), s.mgmt.fuse.req = true ∧ s.mgmt.fuse.want = FuseWant.prog ∧ s.mgmt.fuse.cmd = none) ∧
    (∃ (s : State), s.mgmt.fuse.req = true ∧ s.mgmt.fuse.want = FuseWant.boot ∧ s.mgmt.fuse.first = none) ∧
    (∃ (d : BitVec 39) (s : State), s.mgmt.fuse.req = true ∧ s.mgmt.fuse.want = FuseWant.boot ∧
      s.mgmt.fuse.first = some (some d) ∧ (fuseDecode d).isSome = true) ∧
    (∃ (s : State), s.mgmt.fuse.req = true ∧ s.mgmt.fuse.want = FuseWant.trim ∧ s.boot.ph = BootPh.cold 2 ∧
      s.boot.readAt < 24) ∧
    (∃ (s : State), s.boot.ph = BootPh.off) ∧
    (∃ (a : Nat) (w : BitVec 39) (r : List (Nat × BitVec 39)) (s : State), s.boot.ph = BootPh.up ∧
      s.mgmt.fuse.req = false ∧ s.mgmt.fuse.cmd = none ∧ s.mgmt.fuse.jobOps = (a, w) :: r) ∧
    (∃ (c : FuseCmd) (k : Mb) (tag : BitVec 2) (s : State), s.mgmt.fuse.req = true ∧
      s.mgmt.fuse.want = FuseWant.prog ∧ s.mgmt.fuse.cmd = some c ∧ c.by_ = some (k, tag) ∧
      (List.find? (fun (x : FwCmd) => decide (x.tag = tag)) (s.mb k).cmds).isSome = true) ∧
    (∃ (k : Mb) (tag : BitVec 2) (w : Word) (s : State), Asks s k tag w ∧ argBits w 0 6 = 0 ∧
      s.cmdBusy k tag = false ∧ s.mgmt.fuse.cmd = none ∧ s.mgmt.fuse.ackHigh = true ∧ cmdOpcode w = 88 ∧
      s.winField k w 1 1 ≤ 1 ∧ s.winField k w 2 2 ≠ 0 ∧ s.winField k w 2 2 ≤ 64 ∧
      fuseSpan (s.winField k w 0 1) (s.winField k w 4 2) (s.winField k w 2 2) = true ∧ s.winField k w 0 1 ≠ 5 ∧
      winBase w + 16 + 8 * s.winField k w 2 2 ≤ 4096) :=
  ⟨⟨wS168, by decide +kernel⟩,
   ⟨wS169, by decide +kernel⟩,
   ⟨0, wS170, by decide +kernel⟩,
   ⟨((wPort fun f => { f with want := .trim, addr := 784 }).updBoot fun b => { b with ph := .cold 2, readAt := 3 }),
     by decide +kernel⟩,
   ⟨State.reset, by decide +kernel⟩,
   ⟨800, 3, [], wS171, by decide +kernel⟩,
   ⟨wFc, 3, 1,
     ((wTaken 0).updFuse fun f => { f with req := true, want := .prog, addr := 2, wdata := 7, cmd := some wFc }),
     by decide +kernel⟩,
   ⟨3, 1, (wWord 0x58 0x80),
     ((wAsk 0x58 0x80 [(0, 1, 1), (1, 1, 1), (2, 2, 4), (4, 2, 10)]).updFuse fun f => { f with ackHigh := true }),
     ⟨by decide +kernel, by decide +kernel, by decide +kernel, by decide +kernel⟩, by decide +kernel⟩⟩

/-- States and operands that meet the hypotheses of the clauses of Fuses, continued. -/
theorem wit_Fuses_2 :
    (∃ (k : Mb) (tag : BitVec 2) (w : Word) (s : State), Asks s k tag w ∧ argBits w 0 6 = 0 ∧
      s.cmdBusy k tag = false ∧ s.mgmt.fuse.cmd = none ∧ s.mgmt.fuse.ackHigh = true ∧ cmdOpcode w = 90 ∧
      s.winField k w 2 2 ≠ 0 ∧ s.winField k w 2 2 ≤ 16 ∧
      fuseSpan (s.winField k w 0 1) (s.winField k w 4 2) (s.winField k w 2 2) = true ∧ s.winField k w 0 1 ≤ 4 ∧
      s.mgmt.fuse.locked.getLsbD (s.winField k w 0 1) = false ∧ winBase w + 8 + 4 * s.winField k w 2 2 ≤ 4096) ∧
    (∃ (k : Mb) (tag : BitVec 2) (w : Word) (s : State), Asks s k tag w ∧ cmdOpcode w = 89 ∧ argBits w 0 6 = 0 ∧
      fuseSpan (s.winField k w 0 1) (s.winField k w 4 2) 1 = true ∧ s.winField k w 0 1 ≤ 3 ∧ s.winField k w 1 1 = 0 ∧
      (s.mgmt.fuse.unshadow (s.winField k w 0 1) (s.winField k w 4 2)).length < 32) ∧
    (∃ (k : Mb) (tag : BitVec 2) (w : Word) (s : State), Asks s k tag w ∧ cmdOpcode w = 89 ∧ argBits w 0 6 = 0 ∧
      fuseSpan (s.winField k w 0 1) (s.winField k w 4 2) 1 = true ∧ s.winField k w 0 1 ≤ 3 ∧ s.winField k w 1 1 = 1) ∧
    (∃ (k : Mb) (tag : BitVec 2) (w : Word) (s : State), Asks s k tag w ∧ cmdOpcode w = 91 ∧ argBits w 4 8 = 0 ∧
      argBits w 0 3 < 6 ∧ argBits w 3 1 = 1 ∧ s.cmdBusy k tag = false ∧ s.mgmt.fuse.cmd = none ∧
      s.mgmt.fuse.ackHigh = true ∧ s.mgmt.fuse.locked.getLsbD (argBits w 0 3) = false) :=
  ⟨⟨3, 1, (wWord 0x5A 0x80),
    ((wAsk 0x5A 0x80 [(0, 1, 1), (2, 2, 2), (4, 2, 10), (8, 4, 5), (12, 4, 6)]).updFuse fun f => { f with ackHigh := true }),
    ⟨by decide +kernel, by decide +kernel, by decide +kernel, by decide +kernel⟩, by decide +kernel⟩,
   ⟨3, 1, (wWord 0x59 0x80),
     ((wAsk 0x59 0x80 [(0, 1, 1), (4, 2, 10), (8, 4, 5)]).updFuse fun f => { f with shadows := [(1, 10, 3), (1, 9, 3)] }),
     ⟨by decide +kernel, by decide +kernel, by decide +kernel, by decide +kernel⟩, by decide +kernel⟩,
   ⟨3, 1, (wWord 0x59 0x80),
     ((wAsk 0x59 0x80 [(0, 1, 1), (1, 1, 1), (4, 2, 10)]).updFuse fun f => { f with shadows := [(1, 10, 3), (1, 9, 3)] }),
     ⟨by decide +kernel, by decide +kernel, by decide +kernel, by decide +kernel⟩, by decide +kernel⟩,
   ⟨3, 1, (wWord 0x5B 0x0A), ((wAsk 0x5B 0x0A []).updFuse fun f => { f with ackHigh := true }), ⟨by decide +kernel, by decide +kernel, by decide +kernel,
     by decide +kernel⟩, by decide +kernel⟩⟩

/-- States and operands that meet the hypotheses of the clauses of ExauxInfo. -/
theorem wit_ExauxInfo :
    (∃ (k : Mb) (tag : BitVec 2) (w : Word) (s : State), Asks s k tag w ∧ cmdOpcode w = 1 ∧ cmdArg w = 0) ∧
    (∃ (k : Mb) (tag : BitVec 2) (w : Word) (s : State), Asks s k tag w ∧ cmdOpcode w = 1 ∧ argBits w 0 2 = 1 ∧
      argBits w 2 4 = 0) ∧
    (∃ (k : Mb) (j : Mb) (tag : BitVec 2) (w : Word) (p : Nat) (s : State), Asks s k tag w ∧ cmdOpcode w = 8 ∧
      argBits w 4 2 = 0 ∧ p = s.winField k w 0 2 ∧ (p < 320 ∨ p = 511) ∧ j = Fin.ofNat 24 (argBits w 0 4) ∧ j ≠ k ∧
      (s.mb j).waiting = [] ∧ ∀ c ∈ (s.mb j).cmds, c.running = true) ∧
    (∃ (k : Mb) (tag : BitVec 2) (w : Word) (s : State), Asks s k tag w ∧ cmdOpcode w = 8 ∧ argBits w 4 2 = 0 ∧
      (s.winField k w 0 2 < 320 ∨ s.winField k w 0 2 = 511) ∧ ∃ c ∈ (s.mb (Fin.ofNat 24 (argBits w 0 4))).cmds,
      c.running = false) ∧
    (∃ (k : Mb) (tag : BitVec 2) (w : Word) (s : State), Asks s k tag w ∧ cmdOpcode w = 42 ∧ cmdArg w = 0) ∧
    (∃ (k : Mb) (tag : BitVec 2) (w : Word) (s : State), Asks s k tag w ∧ cmdOpcode w = 41 ∧ cmdArg w = 0 ∧
      s.mgmt.scrub.running = true ∧ s.mgmt.scrub.mb = some k) ∧
    (∃ (k : Mb) (tag : BitVec 2) (w : Word) (s : State), Asks s k tag w ∧ cmdOpcode w = 112 ∧ argBits w 0 6 = 0 ∧
      s.winField k w 0 4 = 0) ∧
    (∃ (k : Mb) (tag : BitVec 2) (w : Word) (s : State), Asks s k tag w ∧ cmdOpcode w = 112 ∧ argBits w 0 6 = 0 ∧
      s.winField k w 0 4 = 1 ∧ s.winField k w 4 4 ≤ 3 ∧ s.winField k w 8 48 < 2 ^ 360) :=
  ⟨⟨3, 1, (wWord 0x01 0), (wAsk 0x01 0 []), ⟨by decide +kernel, by decide +kernel, by decide +kernel, by decide +kernel⟩, by decide +kernel⟩,
   ⟨3, 1, (wWord 0x01 0x41), (wAsk 0x01 0x41 []), ⟨by decide +kernel, by decide +kernel, by decide +kernel, by decide +kernel⟩, by decide +kernel⟩,
   ⟨3, 7, 1, (wWord 0x08 7), 0x30, (wAsk 0x08 7 [(0, 2, 0x30)]), ⟨by decide +kernel, by decide +kernel, by decide +kernel, by decide +kernel⟩, by decide +kernel⟩,
   ⟨3, 1, (wWord 0x08 7), ((wAsk 0x08 7 [(0, 2, 0x30)]).updMb 7 fun b => { b with cmds := [wCmd 2 wCmdWord] }),
     ⟨by decide +kernel, by decide +kernel, by decide +kernel, by decide +kernel⟩, by decide +kernel⟩,
   ⟨3, 1, (wWord 0x2A 0), (wAsk 0x2A 0 []), ⟨by decide +kernel, by decide +kernel, by decide +kernel, by decide +kernel⟩, by decide +kernel⟩,
   ⟨3, 1, (wWord 0x29 0), ((wAsk 0x29 0 []).updScrub fun b => { b with running := true, mb := some 3 }), ⟨by decide +kernel,
     by decide +kernel, by decide +kernel, by decide +kernel⟩, by decide +kernel⟩,
   ⟨3, 1, (wWord 0x70 0), (wAsk 0x70 0 []), ⟨by decide +kernel, by decide +kernel, by decide +kernel, by decide +kernel⟩, by decide +kernel⟩,
   ⟨3, 1, (wWord 0x70 0), (wAsk 0x70 0 [(0, 4, 1), (4, 4, 2), (8, 4, 77)]), ⟨by decide +kernel, by decide +kernel, by decide +kernel, by decide +kernel⟩, by decide +kernel⟩⟩

/-- States and operands that meet the hypotheses of the clauses of ExauxInfo, continued. -/
theorem wit_ExauxInfo_2 :
    (∃ (k : Mb) (tag : BitVec 2) (w : Word) (s : State), Asks s k tag w ∧ cmdOpcode w = 112 ∧ argBits w 0 6 = 0 ∧
      s.winField k w 0 4 = 2 ∧ s.mgmt.log.openPkt = none) ∧
    (∃ (k : Mb) (tag : BitVec 2) (w : Word) (s : State), Asks s k tag w ∧ cmdOpcode w = 116 ∧ argBits w 0 6 = 0) ∧
    (∃ (k : Mb) (tag : BitVec 2) (w : Word) (s : State), Asks s k tag w ∧ cmdOpcode w = 96 ∧ winBase w + 320 ≤ 4096 ∧
      argBits w 0 6 = 0 ∧ s.cmdBusy k tag = false) ∧
    (∃ (k : Mb) (tag : BitVec 2) (w : Word) (s : State), Asks s k tag w ∧ cmdOpcode w = 96 ∧ winBase w + 320 ≤ 4096 ∧
      argBits w 0 6 = 0 ∧ s.cmdBusy k tag = false ∧ s.mgmt.fuse.secret = none) ∧
    (∃ (k : Mb) (tag : BitVec 2) (w : Word) (s : State), Asks s k tag w ∧ cmdOpcode w = 104 ∧ winBase w + 440 ≤ 4096 ∧
      argBits w 0 6 = 0 ∧ hdrBad (s.winBytes k (winBase w) 440) = false ∧ s.cmdBusy k tag = false) ∧
    (∃ (k : Mb) (tag : BitVec 2) (w : Word) (s : State), Asks s k tag w ∧ cmdOpcode w = 105 ∧ cmdArg w = 0 ∧
      s.mgmt.fw.staged.isSome = true) ∧
    (∃ (k : Mb) (tag : BitVec 2) (w : Word) (s : State), Asks s k tag w ∧ cmdOpcode w = 120 ∧ cmdArg w = 256) ∧
    (∃ (k : Mb) (tag : BitVec 2) (w : Word) (s : State), Asks s k tag w ∧ cmdOpcode w = 120 ∧ cmdArg w = 768) :=
  ⟨⟨3, 1, (wWord 0x70 0), (wAsk 0x70 0 [(0, 4, 2)]), ⟨by decide +kernel, by decide +kernel, by decide +kernel, by decide +kernel⟩, by decide +kernel⟩,
   ⟨3, 1, (wWord 0x74 0x80), (wAsk 0x74 0x80 []), ⟨by decide +kernel, by decide +kernel, by decide +kernel, by decide +kernel⟩, by decide +kernel⟩,
   ⟨3, 1, (wWord 0x60 0x80), (wAsk 0x60 0x80 []), ⟨by decide +kernel, by decide +kernel, by decide +kernel, by decide +kernel⟩, by decide +kernel⟩,
   ⟨3, 1, (wWord 0x60 0x80), ((wAsk 0x60 0x80 []).updFuse fun f => { f with unusable := [776] }), ⟨by decide +kernel, by decide +kernel,
     by decide +kernel, by decide +kernel⟩, by decide +kernel⟩,
   ⟨3, 1, (wWord 0x68 0x80), (wAsk 0x68 0x80 [(0, 4, 4)]), ⟨by decide +kernel, by decide +kernel, by decide +kernel, by decide +kernel⟩, by decide +kernel⟩,
   ⟨3, 1, (wWord 0x69 0), ((wAsk 0x69 0 []).updFw fun f => { f with staged := some {} }), ⟨by decide +kernel, by decide +kernel, by decide +kernel,
     by decide +kernel⟩, by decide +kernel⟩,
   ⟨3, 1, (wWord 0x78 0x100), (wAsk 0x78 0x100 []), ⟨by decide +kernel, by decide +kernel, by decide +kernel, by decide +kernel⟩, by decide +kernel⟩,
   ⟨3, 1, (wWord 0x78 0x300), (wAsk 0x78 0x300 []), ⟨by decide +kernel, by decide +kernel, by decide +kernel, by decide +kernel⟩, by decide +kernel⟩⟩

/-- States and operands that meet the hypotheses of the clauses of ExauxInfo, continued. -/
theorem wit_ExauxInfo_3 :
    (∃ (k : Mb) (tag : BitVec 2) (w : Word) (n : Ch) (s : State), Asks s k tag w ∧ cmdOpcode w = 120 ∧
      argBits w 8 4 = 2 ∧ argBits w 6 2 = 0 ∧ n = Fin.ofNat 64 (argBits w 0 6) ∧ s.boot.ph = BootPh.up ∧
      s.map.isJoined n = false ∧ s.map.inTrans n = false ∧ s.map.mapped.getLsbD ↑n = true ∧
      s.map.lost.getLsbD ↑n = false ∧ (s.chan.get n).inReset = false) :=
  ⟨3, 1, (wWord 0x78 0x205), 5,
    ((wAsk 0x78 0x205 []).updChan 5 fun c => c.updSt fun x => { x with tt := [wEnt .rd64 .wait] }), ⟨by decide +kernel, by decide +kernel,
    by decide +kernel, by decide +kernel⟩, by decide +kernel⟩

/-- States and operands that meet the hypotheses of the clauses of ExauxPolicy. -/
theorem wit_ExauxPolicy :
    (∃ (k : Mb) (tag : BitVec 2) (w : Word) (s : State), Asks s k tag w ∧ cmdOpcode w = 16 ∧ argBits w 10 2 = 0 ∧
      argBits w 2 2 = 0 ∧ argBits w 0 2 ≠ 3 ∧ s.pwr.bySr = false ∧ argBits w 8 2 = 0 ∧ (argBits w 0 2 ≠ 0 ∨
      s.pwr.state ≠ PwrState.chrysMgmt ∧ s.pwr.ph ≠ EntryPh.defer)) ∧
    (∃ (k : Mb) (tag : BitVec 2) (w : Word) (s : State), Asks s k tag w ∧ cmdOpcode w = 16 ∧ argBits w 10 2 = 0 ∧
      argBits w 2 2 = 0 ∧ argBits w 0 2 ≠ 3 ∧ s.pwr.bySr = false ∧ argBits w 8 2 = 1 ∧ argBits w 0 2 ≠ 0) ∧
    (∃ (k : Mb) (tag : BitVec 2) (w : Word) (s : State), Asks s k tag w ∧ cmdOpcode w = 16 ∧ argBits w 10 2 = 0 ∧
      argBits w 2 2 = 0 ∧ argBits w 0 2 ≠ 3 ∧ s.pwr.bySr = false ∧ argBits w 8 2 = 2) ∧
    (∃ (i : Idle) (s : State), s.mgmt.fw.idle = some i ∧ s.mgmtOn = true ∧ s.mgmt.fw.st = FwState.ready ∧
      s.pwr.ph = EntryPh.none ∧ s.quietNow = true ∧ s.owesPower = false ∧ s.pwr.state = PwrState.imago ∧
      s.pwr.lossSeq = none ∧ s.pwr.lossHold = false ∧ s.clk.pllLock = true ∧ (i.target = 1 ∨ i.target = 2)) ∧
    (∃ (k : Mb) (tag : BitVec 2) (w : Word) (s : State), Asks s k tag w ∧ cmdOpcode w = 24 ∧ argBits w 2 4 = 0 ∧
      argBits w 0 2 = 0) ∧
    (∃ (k : Mb) (tag : BitVec 2) (w : Word) (s : State), Asks s k tag w ∧ cmdOpcode w = 24 ∧ argBits w 2 4 = 0 ∧
      argBits w 0 2 = 1 ∧ s.winField k w 0 1 ≤ 64 ∧ s.winField k w 1 1 = 0) ∧
    (∃ (k : Mb) (tag : BitVec 2) (w : Word) (s : State), Asks s k tag w ∧ cmdOpcode w = 24 ∧ argBits w 2 4 = 0 ∧
      argBits w 0 2 = 2 ∧ 60 ≤ s.winField k w 4 1 ∧ s.winField k w 4 1 ≤ 90 ∧ 65 ≤ s.winField k w 5 1 ∧
      s.winField k w 5 1 ≤ 95 ∧ s.winField k w 4 1 + 5 ≤ s.winField k w 5 1) ∧
    (∃ (k : Mb) (tag : BitVec 2) (w : Word) (n : Ch) (s : State), Asks s k tag w ∧ cmdOpcode w = 32 ∧
      argBits w 10 2 = 0 ∧ argBits w 2 2 = 0 ∧ argBits w 0 2 ≠ 3 ∧ n = Fin.ofNat 64 (argBits w 4 6) ∧
      s.map.mapped.getLsbD ↑n = true) :=
  ⟨⟨3, 1, (wWord 0x10 2), (wAsk 0x10 2 []), ⟨by decide +kernel, by decide +kernel, by decide +kernel, by decide +kernel⟩, by decide +kernel⟩,
   ⟨3, 1, (wWord 0x10 0x151), (wAsk 0x10 0x151 []), ⟨by decide +kernel, by decide +kernel, by decide +kernel, by decide +kernel⟩, by decide +kernel⟩,
   ⟨3, 1, (wWord 0x10 0x200), (wAsk 0x10 0x200 []), ⟨by decide +kernel, by decide +kernel, by decide +kernel, by decide +kernel⟩, by decide +kernel⟩,
   ⟨{ target := 1, ms := 4 }, ((wFwPw id).updFw fun f => { f with idle := some { target := 1, ms := 4 } }), by decide +kernel⟩,
   ⟨3, 1, (wWord 0x18 0x40), (wAsk 0x18 0x40 []), ⟨by decide +kernel, by decide +kernel, by decide +kernel, by decide +kernel⟩, by decide +kernel⟩,
   ⟨3, 1, (wWord 0x18 0x41), (wAsk 0x18 0x41 [(0, 1, 30), (2, 2, 500)]), ⟨by decide +kernel, by decide +kernel, by decide +kernel, by decide +kernel⟩, by decide +kernel⟩,
   ⟨3, 1, (wWord 0x18 0x42), (wAsk 0x18 0x42 [(4, 1, 70), (5, 1, 80)]), ⟨by decide +kernel, by decide +kernel, by decide +kernel, by decide +kernel⟩, by decide +kernel⟩,
   ⟨3, 1, (wWord 0x20 0x51), 5, ((wAsk 0x20 0x51 []).updFw fun f => { f with modelFloor := Vector.replicate 64 2 }),
     ⟨by decide +kernel, by decide +kernel, by decide +kernel, by decide +kernel⟩, by decide +kernel⟩⟩

/-- States and operands that meet the hypotheses of the clauses of ExauxPolicy, continued. -/
theorem wit_ExauxPolicy_2 :
    (∃ (k : Mb) (tag : BitVec 2) (w : Word) (n : Ch) (s : State), Asks s k tag w ∧ cmdOpcode w = 33 ∧
      argBits w 2 4 = 0 ∧ argBits w 0 2 = 0 ∧ s.winField k w 0 4 = ↑n ∧ s.map.mapped.getLsbD ↑n = true) :=
  ⟨3, 1, (wWord 0x21 0x80), 5, (wAsk 0x21 0x80 [(0, 4, 5)]), ⟨by decide +kernel, by decide +kernel, by decide +kernel, by decide +kernel⟩, by decide +kernel⟩

/-- States and operands that meet the hypotheses of the clauses of ExauxRepair. -/
theorem wit_ExauxRepair :
    (∃ (k : Mb) (tag : BitVec 2) (w : Word) (s : State), Asks s k tag w ∧ cmdOpcode w = 40 ∧ argBits w 0 6 = 0 ∧
      winBase w + 928 ≤ 4096 ∧ s.winField k w 0 8 % 64 = 0 ∧ s.winField k w 8 8 % 64 = 0 ∧ s.winField k w 8 8 ≠ 0 ∧
      s.winField k w 0 8 + s.winField k w 8 8 ≤ s.map.capacity ∧ s.winField k w 16 4 < 3 ∧
      s.winField k w 20 4 ≤ 1048575 ∧ s.mgmt.scrub.held = false ∧ s.mgmt.scrub.running = false ∧ s.map.joined = 0) ∧
    (∃ (k : Mb) (tag : BitVec 2) (w : Word) (d : Dec) (i : Fin 16) (s : State), Asks s k tag w ∧ cmdOpcode w = 48 ∧
      argBits w 0 6 = 0 ∧ s.winField k w 0 8 % 64 = 0 ∧ s.winField k w 0 8 < s.map.capacity ∧
      d = s.map.decode (BitVec.ofNat 40 (s.winField k w 0 8)) ∧ d.status = 0 ∧ s.map.isJoined d.chan = false ∧
      s.cmdBusy k tag = false ∧ s.seqHeld d.chan = false ∧ (s.chan.get d.chan).inReset = false ∧
      (s.chan.get d.chan).remapOf d.loc = none ∧
      List.find? (fun (j : Fin 16) => ((s.chan.get d.chan).remap.get j).st == RemapSt.free) (List.finRange 16) = some i ∧
      (s.chan.get d.chan).canTake s.now (s.chan.get d.chan).cfg.maintCls = true) ∧
    (∃ (k : Mb) (tag : BitVec 2) (w : Word) (n : Ch) (i : Fin 16) (s : State), Asks s k tag w ∧ cmdOpcode w = 49 ∧
      argBits w 10 2 = 0 ∧ n = Fin.ofNat 64 (argBits w 4 6) ∧ i = Fin.ofNat 16 (argBits w 0 4) ∧
      s.cmdBusy k tag = false ∧ s.seqHeld n = false ∧ (((s.chan.get n).remap.get i).st = RemapSt.live ∨
      ((s.chan.get n).remap.get i).st = RemapSt.poisoned) ∧
      (s.chan.get n).remapOf ((s.chan.get n).remap.get i).loc = some i ∧ s.map.isJoined n = false ∧
      s.map.inTrans n = false ∧ (s.chan.get n).inReset = false ∧ s.isGone n = false ∧
      (s.chan.get n).canTake s.now (s.chan.get n).cfg.maintCls = true) ∧
    (∃ (k : Mb) (tag : BitVec 2) (w : Word) (n : Ch) (i : Fin 16) (s : State), Asks s k tag w ∧ cmdOpcode w = 49 ∧
      argBits w 10 2 = 0 ∧ n = Fin.ofNat 64 (argBits w 4 6) ∧ i = Fin.ofNat 16 (argBits w 0 4) ∧
      s.cmdBusy k tag = false ∧ s.seqHeld n = false ∧ (((s.chan.get n).remap.get i).st = RemapSt.free ∨
      ((s.chan.get n).remap.get i).st = RemapSt.filling ∨ s.map.isFollower n = true)) ∧
    (∃ (k : Mb) (tag : BitVec 2) (w : Word) (n : Ch) (i : Fin 16) (s : State), Asks s k tag w ∧ cmdOpcode w = 49 ∧
      argBits w 10 2 = 0 ∧ n = Fin.ofNat 64 (argBits w 4 6) ∧ i = Fin.ofNat 16 (argBits w 0 4) ∧
      s.cmdBusy k tag = false ∧ s.seqHeld n = false ∧ ((s.chan.get n).remap.get i).st = RemapSt.live ∧
      s.map.isFollower n = false ∧ s.isGone n = true) ∧
    (∃ (k : Mb) (tag : BitVec 2) (w : Word) (v : Word) (s : State), Asks s k tag w ∧ argBits w 0 6 = 0 ∧
      v = w32 (s.winField k w 0 4) ∧ s.locBad v = false ∧ s.cmdBusy k tag = false ∧ s.seqHeld (recChan v) = false ∧
      cmdOpcode w = 56 ∧ s.notServing (recChan v) = false ∧ s.resLeft (recChan v) (recLoc v 0) false = true) ∧
    (∃ (k : Mb) (tag : BitVec 2) (w : Word) (v : Word) (s : State), Asks s k tag w ∧ argBits w 0 6 = 0 ∧
      v = w32 (s.winField k w 0 4) ∧ s.locBad v = false ∧ s.cmdBusy k tag = false ∧ s.seqHeld (recChan v) = false ∧
      cmdOpcode w = 57 ∧ s.resLeft (recChan v) (recLoc v 0) true = true ∧ (∃ c ∈ (s.mb k).cmds, c.tag = tag ∧
      c.idle = true) ∧ s.isGone (recChan v) = false) ∧
    (∃ (k : Mb) (tag : BitVec 2) (w : Word) (v : Nat) (n : Ch) (p : Pc) (lane : Fin 36) (i : Fin 2) (s : State),
      Asks s k tag w ∧ cmdOpcode w = 64 ∧ argBits w 0 6 = 0 ∧ v = s.winField k w 0 4 ∧
      v = ↑n + 64 * ↑p + 256 * ↑lane ∧ ((s.chan.get n).pc.get p).freeSpare = some i ∧
      ((s.chan.get n).pc.get p).sel = none ∧ s.map.mapped.getLsbD ↑n = true ∧ s.isGone n = false) :=
  ⟨⟨3, 1, (wWord 0x28 0x80), (wAsk 0x28 0x80 [(0, 8, 128), (8, 8, 256), (0x10, 4, 1), (0x14, 4, 100)]), ⟨by decide +kernel, by decide +kernel,
    by decide +kernel, by decide +kernel⟩, by decide +kernel⟩,
   ⟨3, 1, (wWord 0x30 0x80), (wUp.map.decode 0x1000), 0, (wAsk 0x30 0x80 [(0, 8, 0x1000)]), ⟨by decide +kernel, by decide +kernel, by decide +kernel,
     by decide +kernel⟩, by decide +kernel⟩,
   ⟨3, 1, (wWord 0x31 0x52), 5, 2,
     ((wAsk 0x31 0x52 []).updChan 5 fun c => { c with remap := upd c.remap 2 fun _ => { st := .live, loc := wLoc, data := 9 } }),
     ⟨by decide +kernel, by decide +kernel, by decide +kernel, by decide +kernel⟩, by decide +kernel⟩,
   ⟨3, 1, (wWord 0x31 0x52), 5, 2, (wAsk 0x31 0x52 []), ⟨by decide +kernel, by decide +kernel, by decide +kernel, by decide +kernel⟩, by decide +kernel⟩,
   ⟨3, 1, (wWord 0x31 0x52), 5, 2,
     (((wAsk 0x31 0x52 []).updChan 5 fun c => { c with remap := upd c.remap 2 fun _ => { st := .live, loc := wLoc, data := 9 } }).updMap fun m => { m with lost := 32 }),
     ⟨by decide +kernel, by decide +kernel, by decide +kernel, by decide +kernel⟩, by decide +kernel⟩,
   ⟨3, 1, (wWord 0x38 0x80), (recWord0 0 5 wLoc),
     ((wAsk 0x38 0x80 [(0, 4, (recWord0 0 5 wLoc).toNat)]).updChan 5 fun c => { c with dies := upd c.dies 0 fun d => { d with ro := [(1, 4), (repairAddr wLoc, 0x10)] } }),
     ⟨by decide +kernel, by decide +kernel, by decide +kernel, by decide +kernel⟩, by decide +kernel⟩,
   ⟨3, 1, (wWord 0x39 0x80), (recWord0 0 5 wLoc),
     (((wAsk 0x39 0x80 [(0, 4, (recWord0 0 5 wLoc).toNat)]).updChan 5 fun c => { c with dies := upd c.dies 0 fun d => { d with ro := [(1, 8), (repairAddr wLoc, 0x01)] } }).updMb 3 fun b => { b with cmds := b.cmds.map fun c => { c with idle := true } }),
     ⟨by decide +kernel, by decide +kernel, by decide +kernel, by decide +kernel⟩, by decide +kernel⟩,
   ⟨3, 1, (wWord 0x40 0x80), 1605, 5, 1, 6, 0, (wAsk 0x40 0x80 [(0, 4, 1605)]), ⟨by decide +kernel, by decide +kernel, by decide +kernel, by decide +kernel⟩, by decide +kernel⟩⟩

/-- States and operands that meet the hypotheses of the clauses of ExauxRepair, continued. -/
theorem wit_ExauxRepair_2 :
    (∃ (k : Mb) (tag : BitVec 2) (w : Word) (c : PairIx) (s : State), Asks s k tag w ∧ cmdOpcode w = 72 ∧
      argBits w 6 6 = 0 ∧ c = Fin.ofNat 32 (argBits w 0 5) ∧ s.cmdBusy k tag = false ∧ s.pairBusy c = false ∧
      argBits w 5 1 = 1 ∧ s.map.joined.getLsbD ↑c = false ∧ s.unmapped (leader c) = false ∧
      s.unmapped (follower c) = false ∧ s.map.hole.getLsbD ↑(leader c) = false ∧
      s.map.hole.getLsbD ↑(follower c) = false ∧ remapLocs (s.chan.get (leader c)) (s.chan.get (follower c)) ≤ 16) ∧
    (∃ (k : Mb) (tag : BitVec 2) (w : Word) (c : PairIx) (s : State), Asks s k tag w ∧ cmdOpcode w = 72 ∧
      argBits w 6 6 = 0 ∧ c = Fin.ofNat 32 (argBits w 0 5) ∧ s.cmdBusy k tag = false ∧ s.pairBusy c = false ∧
      argBits w 5 1 = 0 ∧ s.map.joined.getLsbD ↑c = true) ∧
    (∃ (k : Mb) (tag : BitVec 2) (w : Word) (n : Ch) (s : State), Asks s k tag w ∧ cmdOpcode w = 80 ∧
      argBits w 10 2 = 0 ∧ argBits w 6 2 = 0 ∧ n = Fin.ofNat 64 (argBits w 0 6) ∧ s.cmdBusy k tag = false ∧
      s.mgmt.fuse.cmd = none ∧ argBits w 8 2 = 0) ∧
    (∃ (k : Mb) (tag : BitVec 2) (w : Word) (n : Ch) (s : State), Asks s k tag w ∧ cmdOpcode w = 80 ∧
      argBits w 10 2 = 0 ∧ argBits w 6 2 = 0 ∧ n = Fin.ofNat 64 (argBits w 0 6) ∧ s.cmdBusy k tag = false ∧
      s.mgmt.fuse.cmd = none ∧ argBits w 8 2 = 1) ∧
    (∃ (k : Mb) (tag : BitVec 2) (w : Word) (n : Ch) (s : State), Asks s k tag w ∧ cmdOpcode w = 80 ∧
      argBits w 10 2 = 0 ∧ argBits w 6 2 = 0 ∧ n = Fin.ofNat 64 (argBits w 0 6) ∧ s.cmdBusy k tag = false ∧
      s.mgmt.fuse.cmd = none ∧ argBits w 8 2 = 2) :=
  ⟨⟨3, 1, (wWord 0x48 0x25), 5, (wAsk 0x48 0x25 []), ⟨by decide +kernel, by decide +kernel, by decide +kernel, by decide +kernel⟩, by decide +kernel⟩,
   ⟨3, 1, (wWord 0x48 5), 5, ((wAsk 0x48 5 []).updMap fun m => { m with joined := 32 }), ⟨by decide +kernel, by decide +kernel, by decide +kernel, by decide +kernel⟩,
     by decide +kernel⟩,
   ⟨3, 1, (wWord 0x50 5), 5, ((wAsk 0x50 5 []).updFuse fun f => { f with req := true }), ⟨by decide +kernel, by decide +kernel, by decide +kernel, by decide +kernel⟩,
     by decide +kernel⟩,
   ⟨3, 1, (wWord 0x50 0x105), 5, (wAsk 0x50 0x105 []), ⟨by decide +kernel, by decide +kernel, by decide +kernel, by decide +kernel⟩, by decide +kernel⟩,
   ⟨3, 1, (wWord 0x50 0x205), 5, ((wAsk 0x50 0x205 []).updMap fun m => { m with volDis := 0x60 }), ⟨by decide +kernel, by decide +kernel,
     by decide +kernel, by decide +kernel⟩, by decide +kernel⟩⟩

/-- States and operands that meet the hypotheses of the clauses of ExauxRefusals. -/
theorem wit_ExauxRefusals :
    (∃ (k : Mb) (tag : BitVec 2) (w : Word) (s : State), Asks s k tag w ∧ cmdOpcode w = 1 ∧ 1 < argBits w 0 2) ∧
    (∃ (k : Mb) (tag : BitVec 2) (w : Word) (s : State), Asks s k tag w ∧ cmdOpcode w = 8 ∧ argBits w 4 2 ≠ 0) ∧
    (∃ (k : Mb) (tag : BitVec 2) (w : Word) (s : State), Asks s k tag w ∧ cmdOpcode w = 16 ∧ argBits w 8 2 = 3) ∧
    (∃ (k : Mb) (tag : BitVec 2) (w : Word) (s : State), Asks s k tag w ∧ cmdOpcode w = 32 ∧ argBits w 0 2 = 3) ∧
    (∃ (k : Mb) (tag : BitVec 2) (w : Word) (s : State), Asks s k tag w ∧ cmdOpcode w = 40 ∧ 4096 < winBase w + 928) ∧
    (∃ (k : Mb) (tag : BitVec 2) (w : Word) (s : State), Asks s k tag w ∧ cmdOpcode w = 41 ∧ cmdArg w = 0 ∧
      s.mgmt.scrub.running = false) ∧
    (∃ (k : Mb) (tag : BitVec 2) (w : Word) (s : State), Asks s k tag w ∧ cmdOpcode w = 72 ∧ argBits w 5 1 = 1 ∧
      argBits w 6 6 = 0 ∧ s.mgmt.scrub.running = true) ∧
    (∃ (k : Mb) (tag : BitVec 2) (w : Word) (s : State), Asks s k tag w ∧ cmdOpcode w = 91 ∧ argBits w 0 3 = 7) :=
  ⟨⟨3, 1, (wWord 0x01 2), (wAsk 0x01 2 []), ⟨by decide +kernel, by decide +kernel, by decide +kernel, by decide +kernel⟩, by decide +kernel⟩,
   ⟨3, 1, (wWord 0x08 0x10), (wAsk 0x08 0x10 []), ⟨by decide +kernel, by decide +kernel, by decide +kernel, by decide +kernel⟩, by decide +kernel⟩,
   ⟨3, 1, (wWord 0x10 0x300), (wAsk 0x10 0x300 []), ⟨by decide +kernel, by decide +kernel, by decide +kernel, by decide +kernel⟩, by decide +kernel⟩,
   ⟨3, 1, (wWord 0x20 3), (wAsk 0x20 3 []), ⟨by decide +kernel, by decide +kernel, by decide +kernel, by decide +kernel⟩, by decide +kernel⟩,
   ⟨3, 1, (wWord 0x28 0xFC0), (wAsk 0x28 0xFC0 []), ⟨by decide +kernel, by decide +kernel, by decide +kernel, by decide +kernel⟩, by decide +kernel⟩,
   ⟨3, 1, (wWord 0x29 0), (wAsk 0x29 0 []), ⟨by decide +kernel, by decide +kernel, by decide +kernel, by decide +kernel⟩, by decide +kernel⟩,
   ⟨3, 1, (wWord 0x48 0x25), ((wAsk 0x48 0x25 []).updScrub fun b => { b with running := true }), ⟨by decide +kernel, by decide +kernel, by decide +kernel,
     by decide +kernel⟩, by decide +kernel⟩,
   ⟨3, 1, (wWord 0x5B 7), (wAsk 0x5B 7 []), ⟨by decide +kernel, by decide +kernel, by decide +kernel, by decide +kernel⟩, by decide +kernel⟩⟩

/-- States and operands that meet the hypotheses of the clauses of ExauxRefusals, continued. -/
theorem wit_ExauxRefusals_2 :
    (∃ (k : Mb) (tag : BitVec 2) (w : Word) (s : State), Asks s k tag w ∧ cmdOpcode w = 105 ∧ cmdArg w = 0 ∧
      s.mgmt.fw.staged = none) ∧
    (∃ (k : Mb) (tag : BitVec 2) (w : Word) (s : State), Asks s k tag w ∧ cmdOpcode w = 96 ∧ winBase w + 320 ≤ 4096 ∧
      argBits w 0 6 = 0 ∧ s.cmdBusy k tag = true) ∧
    (∃ (k : Mb) (tag : BitVec 2) (w : Word) (s : State), Asks s k tag w ∧ cmdOpcode w = 88 ∧ argBits w 0 6 = 0 ∧
      s.winField k w 0 1 = 5 ∧ s.winField k w 1 1 ≤ 1 ∧ s.winField k w 2 2 ≠ 0 ∧
      fuseSpan 5 (s.winField k w 4 2) (s.winField k w 2 2) = true ∧ winBase w + 16 + 8 * s.winField k w 2 2 ≤ 4096) ∧
    (∃ (k : Mb) (tag : BitVec 2) (w : Word) (s : State), Asks s k tag w ∧ cmdOpcode w = 89 ∧ argBits w 0 6 = 0 ∧
      5 < s.winField k w 0 1 ∧ s.winField k w 1 1 = 0 ∧ fuseSpan (s.winField k w 0 1) (s.winField k w 4 2) 1 = true) ∧
    (∃ (i : Instr) (op : BitVec 7) (ok : Bool) (k : Mb) (tag : BitVec 2) (c : FwCmd) (s : State), ((i, op,
      ok) ∈ have y := have y := have y := [(Instr.fuseShadowSet k tag, 89, s.winField k c.word 1 1 != 1), (Instr.fuseShadowClear k tag, 89, s.winField k c.word 1 1 == 1), (Instr.logConfigGet k tag, 112, s.winField k c.word 0 4 % 4 == 0 || s.winField k c.word 0 4 % 4 == 3), (Instr.logConfigSet k tag, 112, s.winField k c.word 0 4 % 4 == 1), (Instr.logConfigFlush k tag, 112, s.winField k c.word 0 4 % 4 == 2)]; (Instr.twinwingExit k tag,
      72, argBits c.word 5 1 == 0) :: (Instr.channelDisablePersistent k tag, 80,
      argBits c.word 8 2 == 0 || argBits c.word 8 2 == 3) :: (Instr.channelDisableVolatile k tag, 80,
      argBits c.word 8 2 == 1) :: (Instr.channelDisableWithdraw k tag, 80,
      argBits c.word 8 2 == 2) :: y; have y := (Instr.thermalPolicyGet k tag, 24,
      argBits c.word 0 2 == 0 || argBits c.word 0 2 == 3) :: (Instr.thermalPolicySetFloor k tag, 24,
      argBits c.word 0 2 == 1) :: (Instr.thermalPolicySetThresholds k tag, 24,
      argBits c.word 0 2 == 2) :: (Instr.twinwingEnter k tag, 72,
      argBits c.word 5 1 == 1) :: y; (Instr.bistResults k tag, 116, true) :: (Instr.powerStateEnter k tag, 16,
      argBits c.word 8 2 == 0 || argBits c.word 8 2 == 3) :: (Instr.powerStateSetIdle k tag, 16,
      argBits c.word 8 2 == 1) :: (Instr.powerStateClearIdle k tag, 16,
      argBits c.word 8 2 == 2) :: y; have y := have y := (Instr.fuseProgram k tag, 90, true) :: (Instr.fuseLock k tag,
      91, true) :: (Instr.attest k tag, 96, true) :: (Instr.fwStage k tag, 104, true) :: (Instr.fwCommit k tag, 105,
      true) :: y; (Instr.pprSoft k tag, 56, true) :: (Instr.pprHard k tag, 57, true) :: (Instr.laneSpare k tag, 64,
      true) :: (Instr.fuseRead k tag, 88, true) :: y; have y := (Instr.scrubAbort k tag, 41,
      true) :: (Instr.scrubStatus k tag, 42, true) :: (Instr.remapInstall k tag, 48,
      true) :: (Instr.remapRelease k tag, 49, true) :: y; (Instr.setMailboxOwner k tag, 8,
      true) :: (Instr.refreshFloor k tag, 32, true) :: (Instr.trackerPolicy k tag, 33,
      true) :: (Instr.scrubStart k tag, 40, true) :: y) ∧ s.fwRuns = true ∧ s.mgmt.fw.st = FwState.loader ∧
      s.nextCmd k = some c ∧ c.tag = tag ∧ cmdOpcode c.word = op ∧ ok = true) :=
  ⟨⟨3, 1, (wWord 0x69 0), (wAsk 0x69 0 []), ⟨by decide +kernel, by decide +kernel, by decide +kernel, by decide +kernel⟩, by decide +kernel⟩,
   ⟨3, 1, (wWord 0x60 0x80),
     ((wAsk 0x60 0x80 []).updMb 3 fun b => { b with cmds := b.cmds.map fun c => { c with busy := true } }), ⟨by decide +kernel,
     by decide +kernel, by decide +kernel, by decide +kernel⟩, by decide +kernel⟩,
   ⟨3, 1, (wWord 0x58 0x80), (wAsk 0x58 0x80 [(0, 1, 5), (2, 2, 4), (4, 2, 2)]), ⟨by decide +kernel, by decide +kernel, by decide +kernel, by decide +kernel⟩, by decide +kernel⟩,
   ⟨3, 1, (wWord 0x59 0x80), (wAsk 0x59 0x80 [(0, 1, 6), (4, 2, 10)]), ⟨by decide +kernel, by decide +kernel, by decide +kernel, by decide +kernel⟩, by decide +kernel⟩,
   ⟨(.scrubStatus 3 1), 0x2A, true, 3, 1, (wCmd 1 (wWord 0x2A 0)),
     ((wAsk 0x2A 0 []).updFw fun f => { f with st := .loader }), by decide +kernel⟩⟩

/-- States and operands that meet the hypotheses of the clauses of Wrapper. -/
theorem wit_Wrapper :
    (∃ (who : Ident) (n : Ch) (s : State), s.mgmtOn = true ∧ s.quadOn n = true ∧ (who = fwIdent ∨
      identClass who = 2)) ∧
    (∃ (who : Ident) (n : Ch) (s : State), s.mgmtOn = true ∧ s.quadOn n = true ∧ who ≠ fwIdent ∧ identClass who ≠ 2) ∧
    (∃ (s : State), s.mgmt.fuse.factory = true) ∧
    (∃ (s : State), s.mgmt.fuse.factory = false) ∧
    (∃ (mask : BitVec 88) (s : State), s.boot.rstN = false ∧ s.boot.ph ≠ BootPh.off ∧ (s.mgmt.fuse.factory = true ∨
      BitVec.extractLsb' 0 85 mask = BitVec.allOnes 85)) ∧
    (∃ (mask : BitVec 88) (s : State), s.boot.rstN = false ∧ s.boot.ph ≠ BootPh.off ∧ s.mgmt.fuse.factory = false ∧
      BitVec.extractLsb' 0 85 mask ≠ BitVec.allOnes 85) ∧
    (∃ (s : State), s.boot.rstN = true ∨ s.boot.ph = BootPh.off) ∧
    (∃ (j : Fin 4) (s : State), s.boot.dbgBusy.get j = false ∧ s.mgmtOn = true) :=
  ⟨⟨fwIdent, 3, wUp, by decide +kernel⟩,
   ⟨0x21, 3, wUp, by decide +kernel⟩,
   ⟨wS172, by decide +kernel⟩,
   ⟨wUp, by decide +kernel⟩,
   ⟨(BitVec.allOnes 88), wS173, by decide +kernel⟩,
   ⟨5, wS173, by decide +kernel⟩,
   ⟨wUp, by decide +kernel⟩,
   ⟨2, wUp, by decide +kernel⟩⟩

/-- States and operands that meet the hypotheses of the clauses of Wrapper, continued. -/
theorem wit_Wrapper_2 :
    (∃ (j : Fin 4) (s : State), s.boot.dbgBusy.get j = true ∨ s.mgmtOn = false) ∧
    (∃ (j : Fin 4) (u : BitVec 64) (w : Word) (s : State), s.boot.dbgBusy.get j = false ∧ s.mgmtOn = true ∧
      u.getLsbD 63 = false ∧ plainOff (BitVec.extractLsb' 32 24 u).toNat = true ∧
      s.regOff (BitVec.extractLsb' 32 24 u).toNat = false ∧ s.peek (BitVec.extractLsb' 32 24 u).toNat = some w) ∧
    (∃ (s : State), s.mgmt.fuse.factory = true ∧ s.mgmtOn = true ∧ s.mgmt.fuse.mayClose = true ∧
      s.mgmt.fuse.cmd = none ∧ s.mgmt.fuse.ackHigh = true) ∧
    (∃ (v : Word) (s : State), s.mgmt.fuse.factory = true ∧ (v ≠ 12649965 ∨ s.mgmt.fuse.mayClose = false)) :=
  ⟨⟨2, wS174, by decide +kernel⟩,
   ⟨2, 0x0000000000000000, ((wUp.peek 0).getD 0), wUp, by decide +kernel⟩,
   ⟨wS175, by decide +kernel, by decide +kernel, wClose_mayClose, by decide +kernel, by decide +kernel⟩,
   ⟨0x00C105EC, wS175, by decide +kernel⟩⟩

end Sys2Proof.Tests
end

section
/-! PROOFS. The reservations of a channel when its table of steps changes, module link reset, replay, and the timers and
training of a link. -/

namespace Sys2Proof.Machine

/-! ## Reservations: steps that are settled, and the step of a link reset -/

/-- The decided steps that become part of the table leave the reservations as they are (R206). -/
theorem rsvAfter_settleRsv (now : Nat) (l : List Rsv) (vs : List RsvEv) :
    rsvAfter (settleRsv now l vs).1 (settleRsv now l vs).2 = rsvAfter l vs := by
  induction vs generalizing l with
  | nil => rfl
  | cons v r ih =>
    unfold settleRsv
    split
    · exact ih _
    · rfl

theorem updRsv_rsvNow (c : Chan) (now : Nat) (f : List RsvEv → List RsvEv) :
    (c.updRsv now f).rsvNow = rsvAfter c.st.rsv (f c.st.rsvEvs) := rsvAfter_settleRsv now _ _

@[simp] theorem noteRsv_tt (c : Chan) (now : Nat) (op : RsvOp) (p : BitVec 9) :
    (c.noteRsv now op p).st.tt = c.st.tt := rfl

/-- R200: a link reset leaves the reservations of the other modules' ports as they are. -/
theorem rsvEv_apply_reset (v : RsvEv) (l : List Rsv) (h : v.op = .reset) :
    v.apply l = l.filter fun r => portMod r.port != portMod v.port := by
  unfold RsvEv.apply
  simp only [h]
  induction l with
  | nil => rfl
  | cons r l ih =>
    by_cases own : r.port = v.port
    · simp [own, ih]
    · simp only [List.map_cons, if_neg own, List.filter_cons, ih]

theorem noteRsv_reset_rsvNow (c : Chan) (now : Nat) (p : BitVec 9) :
    (c.noteRsv now .reset p).rsvNow = c.rsvNow.filter fun r => portMod r.port != portMod p := by
  unfold Chan.noteRsv
  rw [updRsv_rsvNow]
  unfold Chan.rsvNow rsvAfter
  simp only [List.foldl_append, List.foldl_cons, List.foldl_nil, rsvEv_apply_reset]

theorem portMod_gport_zero (m : Mod) : portMod (BitVec.ofNat 9 (gport m 0).val) = m := by
  revert m; decide

/-! ## An entry to a low-power state that ends -/

section
variable (s : State) (c : BitVec 4)

@[simp] theorem abortEntry_clk : (s.abortEntry c).clk = s.clk := by unfold State.abortEntry; split <;> rfl
@[simp] theorem abortEntry_hlm : (s.abortEntry c).hlm = s.hlm := by unfold State.abortEntry; split <;> rfl
@[simp] theorem abortEntry_port : (s.abortEntry c).port = s.port := by unfold State.abortEntry; split <;> rfl
@[simp] theorem abortEntry_chan : (s.abortEntry c).chan = s.chan := by unfold State.abortEntry; split <;> rfl
@[simp] theorem abortEntry_map : (s.abortEntry c).map = s.map := by unfold State.abortEntry; split <;> rfl
@[simp] theorem abortEntry_dram : (s.abortEntry c).dram = s.dram := by unfold State.abortEntry; split <;> rfl

end

/-! ## Module link reset (R96) -/

/-- What a link reset makes of its module. -/
def Hlm.resetStart (h : Hlm) : Hlm :=
  { h.void with link := .reset, linkResets := h.linkResets + 1, epoch := h.epoch + 1, drained := false }

/-- A link reset that starts: what it does to its module and to the channels, and what it leaves alone. -/
structure LinkResetStarts (s t : State) (m : Mod) : Prop where
  hlm : t.hlm = upd s.hlm m Hlm.resetStart
  chan : t.chan = Vector.ofFn fun n => (s.chan.get n).noteRsv s.clk.now .reset (BitVec.ofNat 9 (gport m 0).val)
  port : t.port = s.port
  map : t.map = s.map
  dram : t.dram = s.dram
  timeBase : t.clk.timeBase = s.clk.timeBase
  occq : s.pwr.abortable = false → t.mgmt.occq = s.mgmt.occq

theorem linkReset_starts (s : State) (m : Mod) (can : s.canReset m = true) : LinkResetStarts s (s.linkReset m) m := by
  unfold State.linkReset
  rw [if_pos can]
  dsimp only [State.drawNat]
  split
  case isTrue ab =>
    exact ⟨abortEntry_hlm .., abortEntry_chan .., abortEntry_port .., abortEntry_map .., abortEntry_dram ..,
      (congrArg Clock.timeBase (abortEntry_clk ..)).trans rfl, fun no => absurd ab (by simp [no])⟩
  case isFalse ab => exact ⟨rfl, rfl, rfl, rfl, rfl, rfl, fun _ => rfl⟩

section
variable (h : Hlm)

/-- What goes with every link reset, whether messages wait in the inbox or not. -/
theorem resetStart_queues : h.resetStart.ingress = [] ∧ h.resetStart.fences = [] ∧ h.resetStart.cfgq = [] ∧
    h.resetStart.txq = [] ∧ h.resetStart.halves = [] ∧ h.resetStart.flit.replay = [] ∧
    h.resetStart.posted = h.posted.map fun r => { r with held := false } := by
  unfold Hlm.resetStart Hlm.void
  split <;> exact ⟨rfl, rfl, rfl, rfl, rfl, rfl, rfl⟩

/-- With no message waiting, tags and credits return to their values at link-up. -/
theorem resetStart_of_inbox_nil (none_ : h.flit.inbox = []) : h.resetStart.tags = [] ∧ h.resetStart.crRead = 512 ∧
    h.resetStart.crWrite = 256 ∧ h.resetStart.crCtrl = 16 := by
  unfold Hlm.resetStart Hlm.void
  rw [none_]
  exact ⟨rfl, rfl, rfl, rfl⟩

/-- Messages that wait are still checked against the tags and credits that they arrived under. -/
theorem resetStart_of_inbox_ne (some_ : h.flit.inbox ≠ []) : h.resetStart.tags = h.tags ∧
    h.resetStart.flit.inbox = h.flit.inbox ∧ h.resetStart.crRead = h.crRead := by
  unfold Hlm.resetStart Hlm.void
  rw [if_neg (by simpa using some_)]
  exact ⟨rfl, rfl, rfl⟩

end

section
variable {s t : State} {m : Mod}

theorem LinkResetStarts.module (r : LinkResetStarts s t m) : t.hlm.get m = (s.hlm.get m).resetStart := by
  rw [r.hlm, upd_get_same]

theorem LinkResetStarts.other (r : LinkResetStarts s t m) : ∀ k, k ≠ m → t.hlm.get k = s.hlm.get k := by
  intro k ne
  rw [r.hlm, upd_get_ne _ _ _ _ ne]

theorem LinkResetStarts.rsvNow (r : LinkResetStarts s t m) (n : Ch) :
    (t.chan.get n).rsvNow = (s.chan.get n).rsvNow.filter fun x => portMod x.port ≠ m := by
  rw [r.chan, ofFn_get, noteRsv_reset_rsvNow, portMod_gport_zero]
  exact List.filter_congr fun x _ => by rw [bne, Bool.beq_eq_decide_eq, decide_not]

theorem LinkResetStarts.tt (r : LinkResetStarts s t m) (n : Ch) : (t.chan.get n).st.tt = (s.chan.get n).st.tt := by
  rw [r.chan, ofFn_get, noteRsv_tt]

end

/-! ## Replay (R69, R72) -/

section
variable (s : State) (m : Mod) {e : TxFlit} {r : List TxFlit}

/-- The module of a replay that starts. -/
def Hlm.replaying (h : Hlm) (e : TxFlit) (w : Window) : Hlm :=
  { h with flit := { h.flit with replayAt := some e.seq }, replayCnt := satInc h.replayCnt, retryWin := some w }

/-- A flit sent fewer than 8 times is replayed; the counting window may have raised the event of link retries. -/
theorem startReplay_of_lt (oldest : (s.hlm.get m).flit.replay = e :: r) (few : e.sends < 8) :
    ∃ w, (s.startReplay m).hlm = upd s.hlm m (fun h => h.replaying e w) ∧ (s.startReplay m).clk = s.clk ∧
      (s.startReplay m).chan = s.chan ∧ (s.startReplay m).port = s.port ∧ (s.startReplay m).dram = s.dram := by
  unfold State.startReplay
  simp only [oldest, if_neg (show ¬ 8 ≤ e.sends by omega)]
  refine ⟨(countIn (s.hlm.get m).retryWin s.now 1000000 (s.hlm.get m).retryThresh.toNat).1, ?_⟩
  split <;> exact ⟨rfl, rfl, rfl, rfl, rfl⟩

/-- The window that counts the retries of a flit that is given up: the open one, or one that opens now. -/
def Hlm.giveUpWindow (h : Hlm) (now : Nat) : Window :=
  (h.retryWin.filter fun w => decide (now < w.openedAt + w.length)).getD
    { openedAt := now, length := 1000000, thresh := h.retryThresh.toNat, count := 0 }

/-- R72: the reset of a link whose flit has been sent 8 times is reported, unless the window has reached its threshold. -/
def State.reportGiveUp (s : State) (m : Mod) : State :=
  let w := (s.hlm.get m).giveUpWindow s.now
  if w.count < w.thresh then s.raise (evRetry m) 1 (BitVec.ofNat 24 w.thresh) (BitVec.ofNat 32 w.count) else s

@[simp] theorem reportGiveUp_clk : (s.reportGiveUp m).clk = s.clk := by unfold State.reportGiveUp; dsimp only; split <;> rfl
@[simp] theorem reportGiveUp_hlm : (s.reportGiveUp m).hlm = s.hlm := by unfold State.reportGiveUp; dsimp only; split <;> rfl
@[simp] theorem reportGiveUp_pwr : (s.reportGiveUp m).pwr = s.pwr := by unfold State.reportGiveUp; dsimp only; split <;> rfl
@[simp] theorem reportGiveUp_canReset : (s.reportGiveUp m).canReset m = s.canReset m := by
  unfold State.reportGiveUp; dsimp only; split <;> rfl

/-- With no window open and a threshold set, the event of link retries reports it. -/
theorem reportGiveUp_occq (closed : (s.hlm.get m).retryWin = none) (on : (s.hlm.get m).retryThresh ≠ 0) :
    (s.reportGiveUp m).mgmt.occq = s.mgmt.occq ++
      [{ e := evRetry m, cause := 1, detA := (s.hlm.get m).retryThresh.setWidth 24, detB := 0, tb := s.clk.timeBase }] := by
  have opens : (s.hlm.get m).giveUpWindow s.now =
      { openedAt := s.now, length := 1000000, thresh := (s.hlm.get m).retryThresh.toNat, count := 0 } := by
    unfold Hlm.giveUpWindow; rw [closed]; rfl
  have positive : 0 < (s.hlm.get m).retryThresh.toNat :=
    Nat.pos_of_ne_zero fun z => on (BitVec.eq_of_toNat_eq z)
  unfold State.reportGiveUp
  simp only [opens, if_pos positive, raise_mgmt_occq, BitVec.ofNat_toNat, BitVec.ofNat_eq_ofNat]

theorem startReplay_of_le (oldest : (s.hlm.get m).flit.replay = e :: r) (many : 8 ≤ e.sends)
    (can : s.canReset m = true) : s.startReplay m = (s.reportGiveUp m).linkReset m := by
  unfold State.startReplay State.reportGiveUp Hlm.giveUpWindow
  simp only [oldest, if_pos many, can, Bool.and_true, decide_eq_true_eq]

end

/-! ## The timers of a link -/

section
variable (s : State) (m : Mod)

theorem exec_replayTimeout {e : TxFlit} {r : List TxFlit} (active : (s.hlm.get m).link = .active)
    (oldest : (s.hlm.get m).flit.replay = e :: r) :
    exec (.replayTimeout m) s = .next ((s.advance (e.sentAt + 256)).startReplay m) := by
  show Host.Outcome.next (s.replayTimeout m) = _
  unfold State.replayTimeout
  simp [oldest, active]

/-- R69: the flit is sent again. -/
theorem replayTimeout_replays {e : TxFlit} {r : List TxFlit} (active : (s.hlm.get m).link = .active)
    (oldest : (s.hlm.get m).flit.replay = e :: r) (few : e.sends < 8) :
    ∃ t, exec (.replayTimeout m) s = .next t ∧ t.clk.now = max s.clk.now (e.sentAt + 256) ∧
      (t.hlm.get m).flit.replayAt = some e.seq ∧ (t.hlm.get m).flit.replay = (s.hlm.get m).flit.replay ∧
      (t.hlm.get m).replayCnt = satInc (s.hlm.get m).replayCnt ∧ (t.hlm.get m).link = .active ∧
      (∀ k, k ≠ m → t.hlm.get k = s.hlm.get k) ∧ t.chan = s.chan ∧ t.port = s.port ∧ t.dram = s.dram := by
  obtain ⟨w, hlm, clk, chan, port, dram⟩ := startReplay_of_lt (s.advance (e.sentAt + 256)) m oldest few
  have module : (((s.advance (e.sentAt + 256)).startReplay m).hlm.get m) = (s.hlm.get m).replaying e w := by
    rw [hlm, upd_get_same, advance_hlm]
  exact ⟨_, exec_replayTimeout s m active oldest, by rw [clk, advance_now], by rw [module]; rfl, by rw [module]; rfl,
    by rw [module]; rfl, by rw [module]; exact active, fun k ne => by rw [hlm, upd_get_ne _ _ _ _ ne, advance_hlm],
    chan, port, dram⟩

/-- R71, R72: the 8th sending was the last, and the link resets. -/
theorem replayTimeout_resets {e : TxFlit} {r : List TxFlit} (active : (s.hlm.get m).link = .active)
    (oldest : (s.hlm.get m).flit.replay = e :: r) (many : 8 ≤ e.sends) (can : s.canReset m = true) :
    ∃ t, exec (.replayTimeout m) s = .next t ∧ (t.hlm.get m).link = .reset ∧ (t.hlm.get m).flit.replay = [] ∧
      ((s.hlm.get m).retryWin = none → (s.hlm.get m).retryThresh ≠ 0 → s.pwr.abortable = false → t.mgmt.occq = s.mgmt.occq ++
        [{ e := evRetry m, cause := 1, detA := (s.hlm.get m).retryThresh.setWidth 24, detB := 0, tb := t.clk.timeBase }]) ∧
      ∀ k, k ≠ m → t.hlm.get k = s.hlm.get k := by
  let late := s.advance (e.sentAt + 256)
  have canLate : (late.reportGiveUp m).canReset m = true := (reportGiveUp_canReset late m).trans can
  have starts := linkReset_starts (late.reportGiveUp m) m canLate
  obtain ⟨-, -, -, -, -, noReplay, -⟩ := resetStart_queues ((late.reportGiveUp m).hlm.get m)
  refine ⟨(late.reportGiveUp m).linkReset m, ?_, by rw [starts.module]; rfl, by rw [starts.module, noReplay], ?_,
    fun k ne => by rw [starts.other k ne, reportGiveUp_hlm]; rfl⟩
  · rw [exec_replayTimeout s m active oldest, startReplay_of_le late m oldest many can]
  · intro closed on awake
    rw [starts.occq (by rw [reportGiveUp_pwr]; exact awake), starts.timeBase, reportGiveUp_clk,
      reportGiveUp_occq late m closed on]
    rfl

theorem nakHoldoffExpiry_ends {u : Nat} (sent : (s.hlm.get m).flit.nakSentAt = some u) :
    exec (.nakHoldoffExpiry m) s =
      .next ((s.advance (u + 256)).updHlm m fun h => { h with flit := { h.flit with nakSentAt := none } }) := by
  show Host.Outcome.next (s.nakHoldoffExpiry m) = _
  unfold State.nakHoldoffExpiry
  rw [sent]

theorem retryWindowClose_closes {w : Window} (open_ : (s.hlm.get m).retryWin = some w) :
    exec (.retryWindowClose m) s =
      .next ((s.advance (w.openedAt + w.length)).updHlm m fun h => { h with retryWin := none }) := by
  show Host.Outcome.next (s.retryWindowClose m) = _
  unfold State.retryWindowClose
  rw [open_]

theorem policeWindowClose_closes {w : Window} (open_ : (s.hlm.get m).policeWin = some w) :
    exec (.policeWindowClose m) s =
      .next ((s.advance (w.openedAt + w.length)).updHlm m fun h => { h with policeWin := none }) := by
  show Host.Outcome.next (s.policeWindowClose m) = _
  unfold State.policeWindowClose
  rw [open_]

theorem ceWindowClose_closes {n : Ch} {w : Window} (open_ : (s.chan.get n).st.ceWindow = some w) :
    exec (.ceWindowClose n) s = .next ((s.advance (w.openedAt + w.length)).updChan n fun c =>
      c.updSt fun x => { x with ceWindow := none }) := by
  show Host.Outcome.next (s.ceWindowClose n) = _
  unfold State.ceWindowClose
  rw [open_]

end

/-! ## A link reset that the host asks for -/

theorem hostLinkResetRequest_resets (s : State) (m : Mod) (can : s.canReset m = true) :
    ∃ t, exec (.hostLinkResetRequest m) s = .next t ∧ (t.hlm.get m).link = .reset ∧
      (t.hlm.get m).linkResets = (s.hlm.get m).linkResets + 1 ∧ (t.hlm.get m).ingress = [] ∧
      (t.hlm.get m).fences = [] ∧ (t.hlm.get m).cfgq = [] ∧ (t.hlm.get m).txq = [] ∧
      ((s.hlm.get m).flit.inbox = [] → (t.hlm.get m).tags = [] ∧ (t.hlm.get m).crRead = 512 ∧
        (t.hlm.get m).crWrite = 256 ∧ (t.hlm.get m).crCtrl = 16) ∧
      ((s.hlm.get m).flit.inbox ≠ [] → (t.hlm.get m).tags = (s.hlm.get m).tags ∧
        (t.hlm.get m).flit.inbox = (s.hlm.get m).flit.inbox ∧ (t.hlm.get m).crRead = (s.hlm.get m).crRead) ∧
      (t.hlm.get m).posted = (s.hlm.get m).posted.map (fun r => { r with held := false }) ∧
      (t.hlm.get m).halves = [] ∧
      (∀ n, (t.chan.get n).rsvNow = (s.chan.get n).rsvNow.filter fun r => portMod r.port ≠ m) ∧
      (∀ n, (t.chan.get n).st.tt = (s.chan.get n).st.tt) ∧ (∀ k, k ≠ m → t.hlm.get k = s.hlm.get k) ∧
      t.port = s.port ∧ t.dram = s.dram ∧ t.map = s.map := by
  have starts := linkReset_starts s m can
  obtain ⟨ingress, fences, cfgq, txq, halves, -, posted⟩ := resetStart_queues (s.hlm.get m)
  refine ⟨s.linkReset m, rfl, ?_⟩
  rw [starts.module]
  exact ⟨rfl, rfl, ingress, fences, cfgq, txq, resetStart_of_inbox_nil _, resetStart_of_inbox_ne _, posted, halves,
    starts.rsvNow, starts.tt, starts.other, starts.port, starts.dram, starts.map⟩

/-! ## Training (R57) -/

section
variable (s : State) (m : Mod)

theorem moduleDrainComplete_trains (reset : (s.hlm.get m).link = .reset) (ok : s.linkOk m = true)
    (drained : (s.hlm.get m).posted = []) (checked : (s.hlm.get m).flit.inbox = []) :
    exec (.moduleDrainComplete m) s =
      .next ((s.updHlm m fun h => { h with trainAt16 := h.maxRate == 1, lastTry := s.now, drained := true }).updFuse
        fun f => f.takeTrims (trimsOf m.val)) := by
  show Host.Outcome.next (s.moduleDrainComplete m) = _
  unfold State.moduleDrainComplete
  rw [if_pos (by simp [reset, ok, drained, checked])]
  rfl

theorem linkTrainingFailure_at32 (training : (s.hlm.get m).inTraining = true) (ok : s.linkOk m = true)
    (fast : (s.hlm.get m).trainAt16 = false) :
    exec (.linkTrainingFailure m) s = .next (s.updHlm m fun h => { h with trainAt16 := true }) := by
  show Host.Outcome.next (s.linkTrainingFailure m) = _
  unfold State.linkTrainingFailure
  simp [training, ok, fast]

theorem linkTrainingFailure_at16 (training : (s.hlm.get m).inTraining = true) (ok : s.linkOk m = true)
    (slow : (s.hlm.get m).trainAt16 = true) :
    exec (.linkTrainingFailure m) s = .next (s.updHlm m fun h => { h with link := .down }) := by
  show Host.Outcome.next (s.linkTrainingFailure m) = _
  unfold State.linkTrainingFailure
  simp [training, ok, slow]

/-- R57: a training that starts at `u`, or at once where that is past. -/
theorem training_after (u : Nat) :
    ((s.advance u).updHlm m fun h => { h.startTraining (s.advance u).now with link := .training }).linkTrims m =
      ((s.advance u).updHlm m fun h =>
        { h with trainAt16 := h.maxRate == 1, link := .training, lastTry := max s.now u }).updFuse fun f =>
          f.takeTrims (trimsOf m.val) := by
  simp only [State.linkTrims, Hlm.startTraining, now_def, advance_now]

theorem trainingRetry_trains (down : (s.hlm.get m).link = .down) (usable : (s.hlm.get m).usable = true)
    (ok : s.linkOk m = true) :
    exec (.trainingRetry m) s = .next (((s.advance ((s.hlm.get m).lastTry + 1000000)).updHlm m fun h =>
      { h with trainAt16 := h.maxRate == 1, link := .training,
               lastTry := max s.now ((s.hlm.get m).lastTry + 1000000) }).updFuse fun f => f.takeTrims (trimsOf m.val)) := by
  show Host.Outcome.next (s.trainingRetry m) = _
  unfold State.trainingRetry
  rw [if_pos (by simp [down, usable, ok])]
  exact congrArg Host.Outcome.next (training_after s m _)

/-- R418: the events that a module sends at link-up are those routed to it whose status is 1. -/
theorem mem_eventsFor {q : EvMsg} : q ∈ s.eventsFor m ↔ (s.mgmt.ev.get q.e).msgEn = true ∧
    (s.mgmt.ev.get q.e).module = m ∧ (s.mgmt.ev.get q.e).occ ≠ (s.mgmt.ev.get q.e).ack ∧ q.port = (s.mgmt.ev.get q.e).port := by
  unfold State.eventsFor
  simp only [List.mem_filterMap, List.mem_finRange, true_and]
  constructor
  · rintro ⟨e, made⟩
    split at made
    case isTrue routed =>
      cases made
      simpa [and_assoc] using routed
    case isFalse => cases made
  · rintro ⟨msgEn, module, waits, port⟩
    refine ⟨q.e, ?_⟩
    rw [if_pos (by simp [msgEn, module, waits]), ← port]

theorem linkTrainingDone_active (rate16 : Bool) (rep : BitVec 4) (training : (s.hlm.get m).inTraining = true)
    (ok : s.linkOk m = true) :
    ∃ t, exec (.linkTrainingDone m rate16 rep) s = .next t ∧ (t.hlm.get m).link = .active ∧
      (t.hlm.get m).rate16 = ((s.hlm.get m).trainAt16 || rate16) ∧ (t.hlm.get m).lanesRepaired = rep ∧
      (t.hlm.get m).crRead = 512 ∧ (t.hlm.get m).crWrite = 256 ∧ (t.hlm.get m).crCtrl = 16 ∧
      (t.hlm.get m).flit.txSeq = 0 ∧ (t.hlm.get m).flit.rxNext = 0 ∧ (t.hlm.get m).flit.ackv = false ∧
      (t.hlm.get m).evq = s.eventsFor m ∧
      (∀ k, k ≠ m → t.hlm.get k = s.hlm.get k) ∧ t.chan = s.chan ∧ t.port = s.port ∧ t.dram = s.dram := by
  refine ⟨s.linkTrainingDone m rate16 rep, rfl, ?_⟩
  unfold State.linkTrainingDone
  rw [if_pos (by simp [training, ok])]
  dsimp only
  rw [updHlm_hlm, upd_get_same]
  exact ⟨rfl, rfl, rfl, rfl, rfl, rfl, rfl, rfl, rfl, rfl, fun k ne => upd_get_ne _ _ _ _ ne, rfl, rfl, rfl⟩

end

/-- Settles O17: each clause is what one command does to a link, by the lemma on that command. -/
theorem linkStates : Obligations.LinkStates := by
  unfold Obligations.LinkStates
  refine ⟨⟨fun m e r s => replayTimeout_replays s m, fun m e r s => replayTimeout_resets s m,
      fun m u s => nakHoldoffExpiry_ends s m, fun m w s => retryWindowClose_closes s m,
      fun m w s => policeWindowClose_closes s m, fun n w s => ceWindowClose_closes s⟩,
    fun m s => hostLinkResetRequest_resets s m,
    fun m s => moduleDrainComplete_trains s m, ?_,
    fun m s => linkTrainingFailure_at32 s m, fun m s => linkTrainingFailure_at16 s m,
    fun m s => trainingRetry_trains s m⟩
  intro m rate16 rep s training ok
  obtain ⟨t, ends, link, rate, lanes, read, write, ctrl, txSeq, rxNext, ackv, evq, rest⟩ :=
    linkTrainingDone_active s m rate16 rep training ok
  refine ⟨t, ends, link, rate, lanes, read, write, ctrl, txSeq, rxNext, ackv, ?_, ?_, rest⟩
  · intro q mem
    rw [evq] at mem
    exact (mem_eventsFor s m).mp mem
  · intro k msgEn module waits
    rw [evq]
    exact (mem_eventsFor s m).mpr ⟨msgEn, module, waits, rfl⟩

end Sys2Proof.Machine
end

section
/-! PROOFS. Power good, gh_rst_n_i, the start of a warm reset, and the restart of Priri: what each reaches, and what it
leaves as it was. -/

namespace Sys2Proof.Machine

/-! ## Loss of power good: core dies in self-refresh keep what they hold (R433) -/

theorem memRead_filter (p : Nat → Bool) (l : List Host.Cell) {a : Nat} (kept : p a = true) :
    memRead (l.filter fun x => p x.1) a = memRead l a := by
  induction l with
  | nil => rfl
  | cons c r ih =>
    by_cases here : c.1 = a
    · simp [memRead, here, kept]
    · cases pc : p c.1 <;> simp [memRead, here, pc, ih]

theorem memReadN_filter (p : Nat → Bool) (l : List Host.Cell) (a n : Nat) (kept : ∀ i < n, p (a + i) = true) :
    memReadN (l.filter fun x => p x.1) a n = memReadN l a n := by
  induction n generalizing a with
  | zero => rfl
  | succ n ih =>
    rw [memReadN, memReadN, memRead_filter p l (a := a) (kept 0 (by omega)),
      ih _ fun i hi => by rw [Nat.add_right_comm]; exact kept (i + 1) (by omega)]

/-- The channel stands above the other parts of a line's key. -/
theorem lineKey_div (n : Ch) (l : Loc) : lineKey n l / 2 ^ 25 = n.val := by
  obtain ⟨pc, sid, bg, ba, row, col⟩ := l
  simp only [lineKey]
  omega

theorem ofNat_lineKey_div (n : Ch) (l : Loc) : Fin.ofNat 64 (lineKey n l / 2 ^ 25) = n := by
  rw [lineKey_div]
  exact Fin.ext (Nat.mod_eq_of_lt n.isLt)

theorem powerFail_readLine (s : State) (n : Ch) (l : Loc) (dies : (s.chan.get n).st.pwr = .selfRefresh) :
    s.powerFail.readLine n l = s.readLine n l := by
  have kept : s.diesKept n = true := by simp [State.diesKept, dies]
  refine congrArg (BitVec.ofNat 512) (memReadN_filter
    (fun a => s.diesKept (Fin.ofNat 64 (a / 64 / 2 ^ 25))) s.dram (lineKey n l * 64) 64 fun i hi => ?_)
  have line : (lineKey n l * 64 + i) / 64 = lineKey n l := by omega
  simp only [line, ofNat_lineKey_div, kept]

theorem powerFail_isPoison (s : State) (n : Ch) (l : Loc) (dies : (s.chan.get n).st.pwr = .selfRefresh) :
    s.powerFail.isPoison n l = s.isPoison n l := by
  have kept : s.diesKept (Fin.ofNat 64 (lineKey n l / 2 ^ 25)) = true := by
    rw [ofNat_lineKey_div]; simp [State.diesKept, dies]
  have mem : lineKey n l ∈ s.powerFail.poisonLines ↔ lineKey n l ∈ s.poisonLines :=
    List.mem_filter.trans (and_iff_left kept)
  unfold State.isPoison
  rw [Bool.eq_iff_iff, List.contains_iff_mem, List.contains_iff_mem, mem]

/-! ## Start of a warm reset (R434) -/

/-- Channels from `c` on make a mask without bits below `c`. -/
theorem two_pow_dvd_sum_channels (l : List Ch) (c : Nat) (above : ∀ k ∈ l, c ≤ k.val) :
    2 ^ c ∣ (l.map fun k : Ch => 2 ^ k.val).sum := by
  induction l with
  | nil => exact Nat.dvd_zero _
  | cons k l ih =>
    rw [List.map_cons, List.sum_cons]
    exact Nat.dvd_add (Nat.pow_dvd_pow 2 (above k List.mem_cons_self))
      (ih fun j mem => above j (List.mem_cons_of_mem k mem))

/-- No two channels of a rising list have the same bit, so none carries into another's. -/
theorem testBit_sum_channels (l : List Ch) (rising : l.Pairwise (· < ·)) (n : Ch) :
    (l.map fun k : Ch => 2 ^ k.val).sum.testBit n.val = decide (n ∈ l) := by
  induction l with
  | nil => exact Nat.zero_testBit _
  | cons k l ih =>
    obtain ⟨below, rest⟩ := List.pairwise_cons.mp rising
    have tail := ih rest
    obtain ⟨q, sum⟩ := two_pow_dvd_sum_channels l (k.val + 1) below
    have small : 2 ^ k.val < 2 ^ (k.val + 1) := Nat.pow_lt_pow_succ (by decide)
    rw [List.map_cons, List.sum_cons, sum, Nat.add_comm, Nat.testBit_two_pow_mul_add q small]
    rw [sum, Nat.testBit_two_pow_mul] at tail
    split
    case isTrue upTo =>
      have notLater : n ∉ l := fun mem => absurd (below n mem) (Nat.not_lt_of_le (Nat.le_of_lt_succ upTo))
      rw [Nat.testBit_two_pow]
      simp only [List.mem_cons, notLater, or_false, Fin.ext_iff, eq_comm]
    case isFalse later =>
      have other : n ≠ k := fun same => later (same ▸ Nat.lt_succ_self _)
      have reaches : n.val ≥ k.val + 1 := Nat.le_of_not_lt later
      rw [decide_eq_true reaches, Bool.true_and] at tail
      rw [tail]
      simp only [List.mem_cons, other, false_or]

/-- A set of channels as a mask. -/
theorem getLsbD_sum_channels (l : List Ch) (rising : l.Pairwise (· < ·)) (n : Ch) :
    (BitVec.ofNat 64 (l.map fun k : Ch => 2 ^ k.val).sum).getLsbD n.val = decide (n ∈ l) := by
  rw [BitVec.getLsbD_ofNat, decide_eq_true n.isLt, Bool.true_and, testBit_sum_channels l rising n]

/-- The mask of the channels that drive their dies. -/
theorem getLsbD_liveCh (s : State) (n : Ch) :
    (BitVec.ofNat 64 (s.liveCh.map fun k => 2 ^ k.val).sum).getLsbD n.val =
      (s.map.mapped.getLsbD n.val && !(s.map.hole.getLsbD n.val && s.map.lost.getLsbD (s.map.server n).val)) := by
  have rising : s.liveCh.Pairwise (· < ·) := (List.pairwise_lt_finRange 64).filter _
  rw [getLsbD_sum_channels _ rising]
  simp [State.liveCh, allCh]

section
variable (s : State) (kind : BitVec 3) (up : s.boot.ph = .up)
include up

theorem startWarm_of_up : s.startWarm kind =
    (((s.updBoot fun b => { b.cutDelivery with ph := .warm 1, w1Done := false, last := kind, warmCnt := satInc b.warmCnt }).mapChan
      fun _ c => { c with inReset := false, resetBy := [] }).mapHlm fun _ h => h.linkEnd).updPwr fun p =>
        { p with keptCh := BitVec.ofNat 64 ((s.liveCh.map fun n => 2 ^ n.val).sum), keptSid := s.map.nsid } := by
  unfold State.startWarm
  rw [up]

theorem startWarm_boot : (s.startWarm kind).boot =
    { s.boot.cutDelivery with ph := .warm 1, w1Done := false, last := kind, warmCnt := satInc s.boot.warmCnt } := by
  rw [startWarm_of_up s kind up, updPwr_boot, mapHlm_boot, mapChan_boot, updBoot_boot]

/-- R434, R84: every link ends and its tags are void; the posted writes of a module are still to be drained (W1). -/
theorem startWarm_hlm (m : Mod) : ((s.startWarm kind).hlm.get m).tags = [] ∧
    ((s.startWarm kind).hlm.get m).posted.length = (s.hlm.get m).posted.length ∧
    ((s.startWarm kind).hlm.get m).link = if (s.hlm.get m).link = .unusable then .unusable else .down := by
  rw [startWarm_of_up s kind up, updPwr_hlm, mapHlm_hlm, ofFn_get, mapChan_hlm, updBoot_hlm]
  refine ⟨rfl, List.length_map _, ?_⟩
  unfold Hlm.linkEnd
  simp only [beq_iff_eq]

/-- R26: the channel resets in progress are superseded, and nothing else of a channel changes yet. -/
theorem startWarm_chan (n : Ch) :
    (s.startWarm kind).chan.get n = { s.chan.get n with inReset := false, resetBy := [] } := by
  rw [startWarm_of_up s kind up, updPwr_chan, mapHlm_chan, mapChan_chan, ofFn_get, updBoot_chan]

theorem startWarm_keptSid : (s.startWarm kind).pwr.keptSid = s.map.nsid := by
  rw [startWarm_of_up s kind up, updPwr_pwr]

theorem startWarm_keptCh (n : Ch) : (s.startWarm kind).pwr.keptCh.getLsbD n.val =
    (s.map.mapped.getLsbD n.val && !(s.map.hole.getLsbD n.val && s.map.lost.getLsbD (s.map.server n).val)) := by
  rw [startWarm_of_up s kind up, updPwr_pwr]
  exact getLsbD_liveCh s n

theorem startWarm_clk : (s.startWarm kind).clk = s.clk := by
  rw [startWarm_of_up s kind up, updPwr_clk, mapHlm_clk, mapChan_clk, updBoot_clk]
theorem startWarm_port : (s.startWarm kind).port = s.port := by
  rw [startWarm_of_up s kind up, updPwr_port, mapHlm_port, mapChan_port, updBoot_port]
theorem startWarm_mgmt : (s.startWarm kind).mgmt = s.mgmt := by
  rw [startWarm_of_up s kind up, updPwr_mgmt, mapHlm_mgmt, mapChan_mgmt, updBoot_mgmt]
theorem startWarm_dram : (s.startWarm kind).dram = s.dram := by
  rw [startWarm_of_up s kind up, updPwr_dram, mapHlm_dram, mapChan_dram, updBoot_dram]

end

/-! ## gh_pwrgood_i, gh_rst_n_i and the delay after RESET -/

section
variable (s : State)

theorem pwrgoodRise_boots (low : s.boot.pwrgood = false) :
    exec .pwrgoodRise s = .next (s.updBoot fun b => { b with pwrgood := true, ph := .cold 1 }) := by
  show Host.Outcome.next (if s.boot.pwrgood then s else _) = _
  rw [low]
  rfl

theorem rstNAssert_starts_warm (up : s.boot.ph = .up) :
    ∃ t, exec .rstNAssert s = .next t ∧ t.boot = { s.boot.cutDelivery with
        rstN := false, ph := .warm 1, w1Done := false, last := 1, warmCnt := satInc s.boot.warmCnt } ∧
      (∀ m, (t.hlm.get m).tags = [] ∧ (t.hlm.get m).posted.length = (s.hlm.get m).posted.length ∧
        (t.hlm.get m).link = if (s.hlm.get m).link = .unusable then .unusable else .down) ∧
      t.pwr.keptSid = s.map.nsid ∧ (∀ n : Ch, t.pwr.keptCh.getLsbD n.val =
        (s.map.mapped.getLsbD n.val && !(s.map.hole.getLsbD n.val && s.map.lost.getLsbD (s.map.server n).val))) ∧
      (∀ n, t.chan.get n = { s.chan.get n with inReset := false, resetBy := [] }) ∧ t.port = s.port ∧ t.mgmt = s.mgmt ∧
      t.dram = s.dram := by
  let low := s.updBoot fun b => { b with rstN := false }
  have lowUp : low.boot.ph = .up := up
  exact ⟨low.startWarm 1, rfl, startWarm_boot low 1 lowUp, startWarm_hlm low 1 lowUp, startWarm_keptSid low 1 lowUp,
    startWarm_keptCh low 1 lowUp, startWarm_chan low 1 lowUp, startWarm_port low 1 lowUp, startWarm_mgmt low 1 lowUp,
    startWarm_dram low 1 lowUp⟩

/-- A warm reset that starts when a delay ends, at `v`. -/
theorem startWarm_after (v : Nat) (up : s.boot.ph = .up) :
    ∃ t, ((s.advance v).updFw fun f => { f with resetAt := none }).startWarm 2 = t ∧ t.clk.now = max s.clk.now v ∧
      t.mgmt.fw = { s.mgmt.fw with resetAt := none } ∧ t.boot = { s.boot.cutDelivery with
        ph := .warm 1, w1Done := false, last := 2, warmCnt := satInc s.boot.warmCnt } ∧
      (∀ m, (t.hlm.get m).tags = [] ∧ (t.hlm.get m).posted.length = (s.hlm.get m).posted.length) ∧
      (∀ n, t.chan.get n = { s.chan.get n with inReset := false, resetBy := [] }) ∧ t.port = s.port ∧ t.dram = s.dram := by
  let due := (s.advance v).updFw fun f => { f with resetAt := none }
  have dueUp : due.boot.ph = .up := up
  refine ⟨due.startWarm 2, rfl, by rw [startWarm_clk due 2 dueUp]; exact advance_now s v,
    by rw [startWarm_mgmt due 2 dueUp]; rfl, startWarm_boot due 2 dueUp, fun m => ?_,
    startWarm_chan due 2 dueUp, startWarm_port due 2 dueUp, startWarm_dram due 2 dueUp⟩
  obtain ⟨tags, posted, -⟩ := startWarm_hlm due 2 dueUp m
  exact ⟨tags, posted⟩

theorem warmResetDelayExpiry_starts_warm {u : Nat} (asked : s.mgmt.fw.resetAt = some u) (up : s.boot.ph = .up) :
    ∃ t, exec .warmResetDelayExpiry s = .next t ∧ t.clk.now = max s.clk.now (u + 1000000) ∧
      t.mgmt.fw = { s.mgmt.fw with resetAt := none } ∧ t.boot = { s.boot.cutDelivery with
        ph := .warm 1, w1Done := false, last := 2, warmCnt := satInc s.boot.warmCnt } ∧
      (∀ m, (t.hlm.get m).tags = [] ∧ (t.hlm.get m).posted.length = (s.hlm.get m).posted.length) ∧
      (∀ n, t.chan.get n = { s.chan.get n with inReset := false, resetBy := [] }) ∧ t.port = s.port ∧ t.dram = s.dram := by
  obtain ⟨t, starts, rest⟩ := startWarm_after s (u + 1000000) up
  refine ⟨t, ?_, rest⟩
  rw [← starts]
  show Host.Outcome.next s.warmResetDelayExpiry = _
  unfold State.warmResetDelayExpiry
  rw [fw_def, asked]

theorem rstNRelease_cold (low : s.boot.rstN = false) (b2 : s.boot.ph = .cold 2) (read : s.boot.readAt = 24) :
    exec .rstNRelease s = .next (s.updBoot fun b => { b with rstN := true, ph := .cold 3 }) := by
  show Host.Outcome.next s.rstNRelease = _
  unfold State.rstNRelease
  simp [low, b2, read, State.toPh, updBoot_updBoot]

theorem rstNRelease_warm (low : s.boot.rstN = false) (w1 : s.boot.ph = .warm 1) (done : s.boot.w1Done = true)
    (unarmed : s.boot.armed = none) (notDue : s.boot.launchDue = false) (idle : s.postedPending = false) :
    exec .rstNRelease s = .next (s.updBoot fun b => { b with rstN := true, ph := .warm 2 }) := by
  have idle' : (s.updBoot fun b => { b with rstN := true }).postedPending = false := idle
  show Host.Outcome.next s.rstNRelease = _
  unfold State.rstNRelease State.tryW2
  simp [low, w1, done, unarmed, notDue, idle', State.toPh, updBoot_updBoot]

end

/-! ## What closing the log's packet and answering accesses leave alone (R354, R420) -/

/-- A fold of steps that each keep a relation keeps it. -/
theorem foldl_keeps {σ α : Type} {R : σ → σ → Prop} (refl : ∀ s, R s s) (trans : ∀ {a b c}, R a b → R b c → R a c)
    {f : σ → α → σ} (step : ∀ s a, R s (f s a)) (l : List α) (s : σ) : R s (l.foldl f s) := by
  induction l generalizing s with
  | nil => exact refl s
  | cons a l ih => exact trans (step s a) (ih _)

/-- The data path, firmware's state and the semaphores are as they were, and no occurrence is lost. -/
structure DataPathKept (s t : State) : Prop where
  chan : t.chan = s.chan
  port : t.port = s.port
  map : t.map = s.map
  dram : t.dram = s.dram
  fw : t.mgmt.fw = s.mgmt.fw
  sem : t.mgmt.sem = s.mgmt.sem
  occq : ∃ l, t.mgmt.occq = s.mgmt.occq ++ l

theorem DataPathKept.refl (s : State) : DataPathKept s s := ⟨rfl, rfl, rfl, rfl, rfl, rfl, [], (List.append_nil _).symm⟩

theorem DataPathKept.trans {a b c : State} (ab : DataPathKept a b) (bc : DataPathKept b c) : DataPathKept a c := by
  obtain ⟨l, occAb⟩ := ab.occq
  obtain ⟨r, occBc⟩ := bc.occq
  exact ⟨bc.chan.trans ab.chan, bc.port.trans ab.port, bc.map.trans ab.map, bc.dram.trans ab.dram, bc.fw.trans ab.fw,
    bc.sem.trans ab.sem, l ++ r, by rw [occBc, occAb, List.append_assoc]⟩

section
variable (s : State)

theorem updLog_kept (f : SilkLog → SilkLog) : DataPathKept s (s.updLog f) :=
  ⟨rfl, rfl, rfl, rfl, rfl, rfl, [], (List.append_nil _).symm⟩

theorem updMb_kept (k : Mb) (f : Mailbox → Mailbox) : DataPathKept s (s.updMb k f) :=
  ⟨rfl, rfl, rfl, rfl, rfl, rfl, [], (List.append_nil _).symm⟩

theorem updHlm_kept (m : Mod) (f : Hlm → Hlm) : DataPathKept s (s.updHlm m f) :=
  ⟨rfl, rfl, rfl, rfl, rfl, rfl, [], (List.append_nil _).symm⟩

theorem updBoot_kept (f : Boot → Boot) : DataPathKept s (s.updBoot f) :=
  ⟨rfl, rfl, rfl, rfl, rfl, rfl, [], (List.append_nil _).symm⟩

theorem raiseG_kept (i : Nat) (a : BitVec 24) (b : Word) : DataPathKept s (s.raiseG i a b) :=
  ⟨rfl, rfl, rfl, rfl, rfl, rfl, _, rfl⟩

theorem levelCheck_kept (old : Nat) : DataPathKept s (State.levelCheck old s) := by
  unfold State.levelCheck
  dsimp only
  split
  · exact raiseG_kept ..
  · exact .refl s

theorem closePkt_kept (type : BitVec 6) (trunc : Bool) (words : List Word) :
    DataPathKept s (s.closePkt type trunc words) := by
  unfold State.closePkt
  dsimp only
  split
  · split
    · exact ((updLog_kept s _).trans (levelCheck_kept _ _)).trans (raiseG_kept ..)
    · exact (updLog_kept s _).trans (levelCheck_kept _ _)
  · exact (updLog_kept s _).trans (levelCheck_kept _ _)

theorem closeOpen_kept (trunc : Bool) : DataPathKept s (s.closeOpen trunc) := by
  unfold State.closeOpen
  dsimp only
  split
  · exact .refl s
  · split
    · exact ((updLog_kept s _).trans (updLog_kept _ _)).trans (levelCheck_kept _ _)
    · exact (updLog_kept s _).trans (closePkt_kept ..)

theorem answerCfg_kept (m : Mod) (seq : Nat) (r : AccRes) : DataPathKept s (s.answerCfg m seq r) := by
  unfold State.answerCfg
  split
  · exact .refl s
  · split
    · exact .refl s
    · exact updHlm_kept ..

end

/-- The same, and every window has the holder it had. -/
structure AccessesAnswered (s t : State) : Prop extends DataPathKept s t where
  winFw : ∀ j, (t.mb j).winFw = (s.mb j).winFw

theorem AccessesAnswered.refl (s : State) : AccessesAnswered s s := ⟨.refl s, fun _ => rfl⟩

theorem AccessesAnswered.trans {a b c : State} (ab : AccessesAnswered a b) (bc : AccessesAnswered b c) :
    AccessesAnswered a c := ⟨ab.toDataPathKept.trans bc.toDataPathKept, fun j => (bc.winFw j).trans (ab.winFw j)⟩

section
variable (s : State)

theorem answerCfg_mb (m : Mod) (seq : Nat) (r : AccRes) : (s.answerCfg m seq r).mb = s.mb := by
  unfold State.answerCfg
  split
  · rfl
  · split <;> rfl

/-- An answer goes back on the path of its access. -/
theorem accAnswer_answered (a : Access) (r : AccRes) : AccessesAnswered s (s.accAnswer a r) := by
  unfold State.accAnswer
  split
  case h_1 m seq _ => exact ⟨answerCfg_kept s m seq r, fun j => by rw [answerCfg_mb]⟩
  case h_2 => exact ⟨⟨rfl, rfl, rfl, rfl, rfl, rfl, [], (List.append_nil _).symm⟩, fun _ => rfl⟩
  case h_3 => cases r <;> exact ⟨updBoot_kept .., fun _ => rfl⟩
  case h_4 => exact ⟨⟨rfl, rfl, rfl, rfl, rfl, rfl, [], (List.append_nil _).symm⟩, fun _ => rfl⟩

theorem updMb_winFw (k j : Mb) (f : Mailbox → Mailbox) :
    ((s.updMb k f).mb j).winFw = if j = k then (f (s.mb j)).winFw else (s.mb j).winFw := by
  rw [mb_def, updMb_mgmt_mb, upd_get]
  split <;> rfl

theorem windowAccess_answered (k : Mb) (a : Nat) (wr : Option Word) :
    AccessesAnswered s (s.windowAccess k a wr).2 := by
  cases wr with
  | none => exact .refl s
  | some v => exact ⟨updMb_kept .., fun j => by rw [State.windowAccess, updMb_winFw]; exact ite_self _⟩

/-- R354: the window's hold ends; the accesses that waited on it are answered. -/
theorem releaseWindow_kept (k : Mb) : DataPathKept s (s.releaseWindow k) ∧
    ∀ j, ((s.releaseWindow k).mb j).winFw = if j = k then false else (s.mb j).winFw := by
  have answered := foldl_keeps .refl .trans (f := fun s (a : Access) =>
      (s.windowAccess k (a.off.toNat % 0x1000) a.wr).2.accAnswer a (s.windowAccess k (a.off.toNat % 0x1000) a.wr).1)
    (fun s a => (windowAccess_answered s k _ _).trans (accAnswer_answered _ _ _))
    (s.mb k).waiting (s.updMb k fun b => { b with winFw := false, waiting := [] })
  exact ⟨(updMb_kept s k _).trans answered.toDataPathKept, fun j => by
    rw [← updMb_winFw s k j fun b => { b with winFw := false, waiting := [] }]; exact answered.winFw j⟩

theorem releaseWindows_kept (l : List Mb) : DataPathKept s (l.foldl State.releaseWindow s) :=
  foldl_keeps .refl .trans (fun s k => (releaseWindow_kept s k).1) l s

theorem releaseWindows_winFw (l : List Mb) (j : Mb) :
    ((l.foldl State.releaseWindow s).mb j).winFw = if j ∈ l then false else (s.mb j).winFw := by
  induction l generalizing s with
  | nil => simp
  | cons k l ih =>
    obtain ⟨-, winFw⟩ := releaseWindow_kept s k
    rw [List.foldl_cons, ih, winFw]
    by_cases here : j = k <;> simp [here]

/-! ## Restart of Priri (R22, R25, R394) -/

section
variable (x : FwState)

@[simp] theorem setFwSt_fw : (s.setFwSt x).mgmt.fw = { s.mgmt.fw with st := x } := by
  unfold State.setFwSt
  split
  case isTrue same => rw [← same]; rfl
  case isFalse => rfl
@[simp] theorem setFwSt_chan : (s.setFwSt x).chan = s.chan := by unfold State.setFwSt; split <;> rfl
@[simp] theorem setFwSt_port : (s.setFwSt x).port = s.port := by unfold State.setFwSt; split <;> rfl
@[simp] theorem setFwSt_map : (s.setFwSt x).map = s.map := by unfold State.setFwSt; split <;> rfl
@[simp] theorem setFwSt_dram : (s.setFwSt x).dram = s.dram := by unfold State.setFwSt; split <;> rfl
@[simp] theorem setFwSt_sem : (s.setFwSt x).mgmt.sem = s.mgmt.sem := by unfold State.setFwSt; split <;> rfl

end

/-- What a restart of Priri that starts does and leaves alone; `why` is the detail of its event. -/
structure PririRestarts (s t : State) (why : BitVec 24) : Prop where
  st : t.mgmt.fw.st = .restarting
  restarts : t.mgmt.fw.restarts = satInc s.mgmt.fw.restarts
  restartWhy : t.mgmt.fw.restartWhy = why
  staged : t.mgmt.fw.staged = none
  sem : ∀ j, t.mgmt.sem.get j = if s.mgmt.sem.get j = some 0x600 then none else s.mgmt.sem.get j
  reported : ∃ o ∈ t.mgmt.occq, o.e = 348 ∧ o.detA = why
  winFw : ∀ k, (t.mb k).winFw = false
  chan : ∀ n, (t.chan.get n).st = (s.chan.get n).st ∧ (t.chan.get n).cfg = (s.chan.get n).cfg
  port : t.port = s.port
  dram : t.dram = s.dram
  map : t.map = s.map

/-- Firmware is marked as restarting, and EV348 is raised. -/
def State.restartMarked (s : State) (why : BitVec 24) : State :=
  let s := (s.updFw fun f => { f.cut with restarts := satInc f.restarts, restartWhy := why }).setFwSt .restarting
  s.raiseG 348 why s.fw.status

/-- The log's packet is closed and the windows are released. -/
def State.restartReleased (s : State) : State := (List.finRange 24).foldl State.releaseWindow (s.closeOpen true)

/-- Firmware's semaphores are freed; the fuse controller, the channels and a delivery are cut. -/
def State.restartCut (s : State) : State :=
  ((s.updMgmt fun g => { g with sem := g.sem.map fun o => if o = some fwIdent then none else o, fuse := g.fuse.cut }).mapChan
    fun _ c => c.cut).updBoot Boot.cutDelivery

theorem pririRestart_eq (why : BitVec 24) (on : s.mgmtOn = true) (runs : s.mgmt.fw.st ≠ .restarting)
    (alone : s.widerReset = false) : s.pririRestart why = (s.restartMarked why).restartReleased.restartCut := by
  unfold State.pririRestart
  rw [if_neg (by simp [on, runs, alone])]
  rfl

theorem restartReleased_kept : DataPathKept s s.restartReleased :=
  (closeOpen_kept s true).trans (releaseWindows_kept _ _)

theorem restartReleased_winFw (k : Mb) : (s.restartReleased.mb k).winFw = false := by
  unfold State.restartReleased
  rw [releaseWindows_winFw, if_pos (List.mem_finRange k)]

theorem restartMarked_fw (why : BitVec 24) : (s.restartMarked why).mgmt.fw =
    { s.mgmt.fw.cut with restarts := satInc s.mgmt.fw.restarts, restartWhy := why, st := .restarting } := by
  unfold State.restartMarked State.raiseG
  rw [raise_mgmt_fw, setFwSt_fw]
  rfl

theorem restartMarked_reported (why : BitVec 24) : ∃ o ∈ (s.restartMarked why).mgmt.occq, o.e = 348 ∧ o.detA = why :=
  ⟨_, List.mem_append_right _ (List.mem_singleton_self _), rfl, rfl⟩

theorem restartMarked_frame (why : BitVec 24) : (s.restartMarked why).chan = s.chan ∧
    (s.restartMarked why).port = s.port ∧ (s.restartMarked why).map = s.map ∧ (s.restartMarked why).dram = s.dram ∧
    (s.restartMarked why).mgmt.sem = s.mgmt.sem := by
  unfold State.restartMarked State.raiseG
  simp

theorem restartCut_mgmt : s.restartCut.mgmt = { s.mgmt with
    sem := s.mgmt.sem.map fun o => if o = some fwIdent then none else o, fuse := s.mgmt.fuse.cut } := by
  unfold State.restartCut
  rw [updBoot_mgmt, mapChan_mgmt, updMgmt_mgmt]

/-- R356: what firmware held is free. -/
theorem restartCut_sem (j : SemIx) :
    s.restartCut.mgmt.sem.get j = if s.mgmt.sem.get j = some 0x600 then none else s.mgmt.sem.get j := by
  rw [restartCut_mgmt]
  show (s.mgmt.sem.map fun o => if o = some fwIdent then none else o)[j.val] = _
  rw [Vector.getElem_map]
  rfl

theorem restartCut_mb (k : Mb) : s.restartCut.mb k = s.mb k := by
  rw [mb_def, mb_def, restartCut_mgmt]

theorem restartCut_chan (n : Ch) : s.restartCut.chan.get n = (s.chan.get n).cut := by
  unfold State.restartCut
  rw [updBoot_chan, mapChan_chan, ofFn_get, updMgmt_chan]

theorem restartCut_port : s.restartCut.port = s.port := by
  unfold State.restartCut; rw [updBoot_port, mapChan_port, updMgmt_port]
theorem restartCut_map : s.restartCut.map = s.map := by
  unfold State.restartCut; rw [updBoot_map, mapChan_map, updMgmt_map]
theorem restartCut_dram : s.restartCut.dram = s.dram := by
  unfold State.restartCut; rw [updBoot_dram, mapChan_dram, updMgmt_dram]

theorem pririRestart_restarts (why : BitVec 24) (on : s.mgmtOn = true) (runs : s.mgmt.fw.st ≠ .restarting)
    (alone : s.widerReset = false) : PririRestarts s (s.pririRestart why) why := by
  rw [pririRestart_eq s why on runs alone]
  have kept := restartReleased_kept (s.restartMarked why)
  obtain ⟨chan, port, map, dram, sem⟩ := restartMarked_frame s why
  obtain ⟨o, mem, isRestart⟩ := restartMarked_reported s why
  obtain ⟨later, occq⟩ := kept.occq
  have fw : ((s.restartMarked why).restartReleased.restartCut).mgmt.fw =
      { s.mgmt.fw.cut with restarts := satInc s.mgmt.fw.restarts, restartWhy := why, st := .restarting } := by
    rw [restartCut_mgmt, ← restartMarked_fw s why, ← kept.fw]
  exact {
    st := by rw [fw]
    restarts := by rw [fw]
    restartWhy := by rw [fw]
    staged := by rw [fw]; rfl
    sem := fun j => by rw [restartCut_sem, kept.sem, sem]
    reported := ⟨o, by rw [restartCut_mgmt, occq]; exact List.mem_append_left _ mem, isRestart⟩
    winFw := fun k => by rw [restartCut_mb, restartReleased_winFw]
    chan := fun n => by rw [restartCut_chan, kept.chan, chan]; exact ⟨rfl, rfl⟩
    port := by rw [restartCut_port, kept.port, port]
    dram := by rw [restartCut_dram, kept.dram, dram]
    map := by rw [restartCut_map, kept.map, map] }

/-- The watchdog's restart, whether its period is set or not. -/
theorem watchdog_restarts (on : s.mgmtOn = true) (runs : s.mgmt.fw.st ≠ .restarting)
    (alone : s.widerReset = false) : PririRestarts s s.watchdog 1 := by
  unfold State.watchdog
  split
  · exact pririRestart_restarts s 1 on runs alone
  · obtain ⟨st, restarts, restartWhy, staged, sem, reported, winFw, chan, port, dram, map⟩ :=
      pririRestart_restarts (s.advance (s.fw.wdtServed + s.fw.wdtPeriod)) 1 on runs alone
    exact ⟨st, restarts, restartWhy, staged, sem, reported, winFw, chan, port, dram, map⟩

end

/-! ## Priri runs again (R25, R394) -/

/-- Every channel is as it was, but for the note of its latest repair; modules, stored data, mailboxes and the boot are
untouched. -/
structure RepairsNoted (s t : State) : Prop where
  hlm : t.hlm = s.hlm
  dram : t.dram = s.dram
  boot : t.boot = s.boot
  mb : t.mb = s.mb
  chan : ∀ n, t.chan.get n = { s.chan.get n with lastRepair := (t.chan.get n).lastRepair }

theorem RepairsNoted.refl (s : State) : RepairsNoted s s := ⟨rfl, rfl, rfl, rfl, fun _ => rfl⟩

theorem RepairsNoted.trans {a b c : State} (ab : RepairsNoted a b) (bc : RepairsNoted b c) : RepairsNoted a c :=
  ⟨bc.hlm.trans ab.hlm, bc.dram.trans ab.dram, bc.boot.trans ab.boot, bc.mb.trans ab.mb,
    fun n => (bc.chan n).trans (by rw [ab.chan n])⟩

section
variable (s : State)

theorem updFuse_noted (f : Fuses → Fuses) : RepairsNoted s (s.updFuse f) := ⟨rfl, rfl, rfl, rfl, fun _ => rfl⟩

theorem updFw_noted (f : Fw → Fw) : RepairsNoted s (s.updFw f) := ⟨rfl, rfl, rfl, rfl, fun _ => rfl⟩

theorem setFwSt_noted (x : FwState) : RepairsNoted s (s.setFwSt x) := by
  unfold State.setFwSt
  split
  · exact .refl s
  · exact ⟨rfl, rfl, rfl, rfl, fun _ => rfl⟩

theorem fuseGo_noted : RepairsNoted s s.fuseGo := by
  unfold State.fuseGo
  dsimp only
  split
  · exact .refl s
  · split
    · split <;> exact updFuse_noted ..
    · split <;> exact (updFuse_noted s _).trans (updFuse_noted ..)

theorem addRecord_noted (w0 w1 : Word) : RepairsNoted s (s.addRecord w0 w1).2 := by
  unfold State.addRecord
  split
  · exact (updFuse_noted s _).trans (fuseGo_noted _)
  · exact .refl s

theorem repairReport_noted (n : Ch) (hard failed : Bool) (l : Loc) :
    RepairsNoted s (s.repairReport n hard failed l none) := by
  unfold State.repairReport
  split
  · exact .refl s
  · split
    · exact addRecord_noted ..
    · exact .refl s

/-- R55: a repair that ended while Priri restarted is noted, and its record reserved. -/
theorem repairNote_noted (n : Ch) : RepairsNoted s (s.repairNote n) := by
  unfold State.repairNote
  split
  · refine .trans (b := s.updChan n fun c => { c with lastRepair := _ }) ⟨rfl, rfl, rfl, rfl, fun k => ?_⟩
      (repairReport_noted ..)
    rw [updChan_chan, upd_get]
    split <;> rfl
  · exact .refl s

theorem repairNotes_noted (l : List Ch) : RepairsNoted s (l.foldl State.repairNote s) :=
  foldl_keeps .refl .trans repairNote_noted l s

theorem askUrgents_noted (l : List Ch) : RepairsNoted s (l.foldl (fun s n => s.askUrgent n none) s) :=
  foldl_keeps .refl .trans (fun s _ => updFw_noted s _) l s

/-- The notes of repairs and the pauses that the command-lane flows ask for. -/
def State.restartNotes (s : State) : State :=
  let s := allCh.foldl State.repairNote s
  (allCh.filter fun n => (s.chan.get n).cmdFlow).foldl (fun s n => s.askUrgent n none) s

theorem restartNotes_noted : RepairsNoted s s.restartNotes :=
  (repairNotes_noted s allCh).trans (askUrgents_noted _ _)

theorem pririRestartDone_eq (restarting : s.mgmt.fw.st = .restarting) (noCommit : s.mgmt.fw.commitOn = none)
    (notW1 : s.boot.ph ≠ .warm 1) (notW2 : s.boot.ph ≠ .warm 2) :
    s.pririRestartDone = (s.mapMb fun _ b => b.restarted).restartNotes.setFwSt
      (if s.boot.ph = .up ∧ s.boot.stageOpen = false then .ready else .rom) := by
  have boot := (restartNotes_noted (s.mapMb fun _ b => b.restarted)).boot
  unfold State.restartNotes at boot ⊢
  unfold State.pririRestartDone
  rw [if_neg (by simp [restarting, notW1, notW2])]
  simp only [fw_def, noCommit]
  rw [if_neg (by simp), boot]
  simp only [mapMb_boot, Bool.and_eq_true, beq_iff_eq, Bool.not_eq_true']

theorem pririRestartDone_answers (restarting : s.mgmt.fw.st = .restarting) (noCommit : s.mgmt.fw.commitOn = none)
    (notW1 : s.boot.ph ≠ .warm 1) (notW2 : s.boot.ph ≠ .warm 2) :
    ∃ t, exec .pririRestartDone s = .next t ∧
      t.mgmt.fw.st = (if s.boot.ph = .up ∧ s.boot.stageOpen = false then .ready else .rom) ∧
      (∀ k, (t.mb k).cmds = [] ∧
        (∀ c ∈ (s.mb k).cmds, { opcode := cmdOpcode c.word, tag := c.tag, status := 9, result := 0 } ∈ (t.mb k).answers) ∧
        ∀ a ∈ (s.mb k).answers, a ∈ (t.mb k).answers) ∧
      (∀ n, (s.chan.get n).cmdFlow = false → t.chan.get n = { s.chan.get n with lastRepair := (t.chan.get n).lastRepair }) ∧
      t.hlm = s.hlm ∧ t.dram = s.dram := by
  have noted := (restartNotes_noted (s.mapMb fun _ b => b.restarted)).trans (setFwSt_noted _
    (if s.boot.ph = .up ∧ s.boot.stageOpen = false then .ready else .rom))
  refine ⟨s.pririRestartDone, rfl, ?_⟩
  rw [pririRestartDone_eq s restarting noCommit notW1 notW2]
  refine ⟨by rw [setFwSt_fw], fun k => ?_, fun n _ => ?_, by rw [noted.hlm, mapMb_hlm], by rw [noted.dram, mapMb_dram]⟩
  · rw [noted.mb, mb_def, mapMb_mgmt_mb, ofFn_get, mb_def]
    exact ⟨rfl, fun c mem => List.mem_append_right _ (List.mem_map_of_mem mem), fun a mem => List.mem_append_left _ mem⟩
  · have same := noted.chan n
    rwa [mapMb_chan] at same

end

/-- Settles O52: power good by the memory rules for the core dies, the warm resets by the start of one, the restarts of
Priri by what they release and cut. -/
theorem resets : Obligations.Resets := by
  unfold Obligations.Resets
  refine ⟨pwrgoodRise_boots, fun n l s => ?_, rstNAssert_starts_warm, rstNRelease_cold, rstNRelease_warm,
    fun u s => warmResetDelayExpiry_starts_warm s, fun i why s cause on runs alone => ?_, pririRestartDone_answers⟩
  · exact ⟨s.powerFail, rfl, rfl, rfl, rfl, rfl, rfl, rfl, rfl, rfl, rfl, rfl, rfl,
      fun dies => ⟨powerFail_readLine s n l dies, powerFail_isPoison s n l dies⟩, rfl, rfl, rfl⟩
  · have restarts : ∃ t, exec i s = .next t ∧ PririRestarts s t why := by
      obtain ⟨rfl, rfl⟩ | ⟨rfl, rfl⟩ := cause
      · exact ⟨s.watchdog, rfl, watchdog_restarts s on runs alone⟩
      · exact ⟨s.pririRestart 4, rfl, pririRestart_restarts s 4 on runs alone⟩
    obtain ⟨t, next, r⟩ := restarts
    exact ⟨t, next, r.st, r.restarts, r.restartWhy, r.staged, r.sem, r.reported, r.winFw, r.chan, r.port, r.dram, r.map⟩

end Sys2Proof.Machine
end

section
/-! PROOFS. A request that passes its checks: what it costs, and the place that it takes in its module. -/

namespace Sys2Proof.Machine

/-! ## A request that arrives and passes its checks (R77) -/

/-- Each request command hands its message, whose header is good, to the module. -/
theorem exec_of_requestOf {i : Instr} {m : Mod} {x : Msg} (request : requestOf i = some (m, x)) (s : State) :
    exec i s = .next (s.recvReq m x) := by
  unfold requestOf at request
  split at request
  case h_18 | h_19 | h_20 | h_21 | h_22 =>
    obtain ⟨good, same⟩ := Option.ite_none_left_eq_some.mp request
    cases same
    rw [Bool.not_eq_true] at good
    exact congrArg (fun bad => Host.Outcome.next (s.recvReq _ _ bad)) good
  case h_23 => cases request
  all_goals cases request; rfl

section
variable {s : State} {m : Mod} {x : Msg}

theorem updHlm_stir (f : Hlm → Hlm) : (s.updHlm m f).stir = s.stir.updHlm m f := rfl

/-- Only what a function makes of the module matters. -/
theorem updHlm_congr {f g : Hlm → Hlm} (same : f (s.hlm.get m) = g (s.hlm.get m)) : s.updHlm m f = s.updHlm m g :=
  congrArg (fun v => { s with hlm := v }) (upd_congr s.hlm m same)

/-- R77: a request that arrives with checks 1 to 6 passed is policed. -/
theorem recvReq_of_arrives (arrives : Arrives s m x) (path : (reqKind x.opc).onPath = true) :
    s.recvReq m x = (s.updHlm m fun h => h.creditUse (reqKind x.opc).credit).policeReq m (reqKind x.opc) x := by
  obtain ⟨legal, link, first, awake, credit, tag, fields⟩ := arrives
  obtain ⟨slots, isSlots⟩ := Option.isSome_iff_exists.mp legal
  unfold State.recvReq
  simp only [first, link, beq_self_eq_true, if_true]
  unfold State.doReq
  simp only [isSlots, path, Bool.true_or, if_true, abortEntry_of_not s awake]
  unfold State.checkReq
  simp only [credit, tag, fields, path, Bool.not_true, Bool.and_false, Bool.false_eq_true, if_false, if_true]

@[simp] theorem creditUse_seq (h : Hlm) (c : Credit) : (h.creditUse c).seq = h.seq := by cases c <;> rfl
@[simp] theorem creditUse_fences (h : Hlm) (c : Credit) : (h.creditUse c).fences = h.fences := by cases c <;> rfl
@[simp] theorem creditUse_classOvh (h : Hlm) (c : Credit) : (h.creditUse c).classOvh = h.classOvh := by cases c <;> rfl

/-- The policer keeps the class of its port: it is off, or the request is red, yellow or green. -/
theorem police_class (p : Port) (l : Nat) : (p.police l).2.cls = p.cls ∧ (p.police l).2.clsFrom = p.clsFrom := by
  unfold Port.police
  split
  · exact ⟨rfl, rfl⟩
  · split
    · exact ⟨rfl, rfl⟩
    · split
      · exact ⟨rfl, rfl⟩
      · exact ⟨rfl, rfl⟩

/-- The request that takes its place is the accepted one, whether the credit has been taken and the map frozen or not. -/
theorem mkRq_accepted (yellow : Bool) (colour : yellow = decide ((policed s m x).1 = .yellow)) :
    mkRq ((s.hlm.get m).creditUse (reqKind x.opc).credit) (policed s m x).2 (reqKind x.opc) x (s.map.decode x.hdr.addr)
      (s.map.server (s.map.decode x.hdr.addr).chan) yellow s.now = accepted s m x := by
  subst colour
  unfold mkRq accepted mkRq policed Hlm.fenced
  simp only [creditUse_seq, creditUse_fences, (police_class _ _).1, (police_class _ _).2]

/-- R77 checks 8 to 10: a request that passes them takes its place in its module. -/
theorem decodeReq_of_passes (k : RKind) (yellow : Bool) (place : s.placeCheck k (s.map.decode x.hdr.addr) = none) :
    s.decodeReq m k x yellow = ((s.updMap fun q => { q with frozen := true }).updHlm m fun h =>
      h.takeIn (mkRq h (s.port.get (gport m x.hdr.port)) k x (s.map.decode x.hdr.addr)
        (s.map.server (s.map.decode x.hdr.addr).chan) yellow s.now) x.hdr s.now).stir := by
  have inRange : ¬ ((s.map.decode x.hdr.addr).status = 1 ∨ (s.map.decode x.hdr.addr).status = 2) := by
    intro out
    unfold State.placeCheck at place
    rw [if_pos out] at place
    cases place
  unfold State.decodeReq
  simp only [if_neg inRange]
  have same : (s.updMap fun q => { q with frozen := true }).placeCheck k (s.map.decode x.hdr.addr) = none := place
  rw [same]
  rfl

/-- What the policer answers does not depend on the credit. -/
theorem policed_creditUse (c : Credit) : policed (s.updHlm m fun h => h.creditUse c) m x = policed s m x := by
  unfold policed Hlm.chargeOf
  rw [updHlm_hlm, upd_get_same, creditUse_classOvh, updHlm_port]

/-- R77 check 7: a request that is not red goes on to its decode, with its port charged. -/
theorem policeReq_of_not_red (colour : (policed s m x).1 ≠ .red) :
    s.policeReq m (reqKind x.opc) x = (s.updPort (gport m x.hdr.port) fun _ => (policed s m x).2).decodeReq m
      (reqKind x.opc) x (decide ((policed s m x).1 = .yellow)) := by
  have byColour : s.policeReq m (reqKind x.opc) x =
      let t := s.updPort (gport m x.hdr.port) fun _ => (policed s m x).2
      match (policed s m x).1 with
      | .red => (t.countRed m).updHlm m fun h => h.throttle (reqKind x.opc) x.hdr s.now
      | .yellow => t.decodeReq m (reqKind x.opc) x true
      | .green => t.decodeReq m (reqKind x.opc) x false := rfl
  rw [byColour]
  cases is : (policed s m x).1 with
  | red => exact absurd is colour
  | yellow => rfl
  | green => rfl

/-- R77: a request that arrives and passes its checks costs a credit, charges its port, and takes its place in its module. -/
theorem recvReq_of_passes (arrives : Arrives s m x) (passes : Passes s m x) (path : (reqKind x.opc).onPath = true) :
    s.recvReq m x = (charged s m x).updHlm m fun h =>
      (h.creditUse (reqKind x.opc).credit).takeIn (accepted s m x) x.hdr s.now := by
  obtain ⟨colour, place⟩ := passes
  have same := policed_creditUse (s := s) (m := m) (x := x) (reqKind x.opc).credit
  rw [recvReq_of_arrives arrives path, policeReq_of_not_red (by rw [same]; exact colour), same,
    decodeReq_of_passes _ _ (by exact place)]
  rw [updHlm_updPort, updHlm_updMap, updHlm_updHlm, updHlm_port, updPort_port, upd_get_same]
  rw [updPort_updMap, updHlm_stir]
  refine updHlm_congr (s := charged s m x) ?_
  exact congrArg (fun r => Hlm.takeIn _ r x.hdr s.now) (mkRq_accepted (s := s) (m := m) (x := x) _ rfl)

/-! ## The place that an accepted request takes (R31, R191, R196) -/

/-- The requests that wait in the ingress queue: no write, and no read that a write in the module answers. -/
structure Queues (h : Hlm) (r : Rq) : Prop where
  read : ¬ (r.kind = .wr64 ∨ r.kind = .wrp)
  unanswered : r.kind = .rd64 → r.held = true ∨ h.forwardOf r.port r.seq r.addr = none

/-- No write of the module answers the request. -/
theorem forwarded_none {h : Hlm} {r : Rq} (queues : Queues h r) :
    (if r.kind = .rd64 ∧ !r.held then h.forwardOf r.port r.seq r.addr else none) = none := by
  by_cases held : r.kind = .rd64 ∧ r.held = false
  · obtain ⟨rd64, notHeld⟩ := held
    obtain isHeld | none_ := queues.unanswered rd64
    · rw [notHeld] at isHeld; cases isHeld
    · rw [none_, ite_self]
  · rw [if_neg (by simpa using held)]

theorem takeIn_queued {h : Hlm} {r : Rq} (hd : ReqHdr) (now : Nat) (queues : Queues h r) (tracked : r.kind ≠ .hint) :
    h.takeIn r hd now =
      { h.addTag r.kind hd (some r.ch) now with seq := h.seq + 1, ingress := h.ingress ++ [r] } := by
  unfold Hlm.takeIn
  simp only [if_neg tracked, if_neg queues.read, forwarded_none queues]
  rfl

theorem takeIn_hint {h : Hlm} {r : Rq} (hd : ReqHdr) (now : Nat) (hint : r.kind = .hint) :
    h.takeIn r hd now = { h with seq := h.seq + 1, ingress := h.ingress ++ [r] } := by
  unfold Hlm.takeIn
  simp [hint]

/-- R191: a read that a write of the module answers does not enter the ingress queue. -/
theorem takeIn_forwarded {h : Hlm} {r w : Rq} (hd : ReqHdr) (now : Nat) (rd64 : r.kind = .rd64) (free : r.held = false)
    (answers : h.forwardOf r.port r.seq r.addr = some w) :
    (h.takeIn r hd now).ingress = h.ingress ∧ (h.takeIn r hd now).posted = h.posted ∧
      (h.takeIn r hd now).crRead = h.crRead ∧ (h.takeIn r hd now).txq = h.txq ++ [forwardMsg r.port r.tag w] := by
  unfold Hlm.takeIn
  simp [rd64, free, answers, Hlm.addTag]

/-- A read, LDR, STC or AMO that no write in the module answers takes a credit, a tag and a place in the ingress queue. -/
theorem exec_queued {i : Instr} (request : requestOf i = some (m, x)) (arrives : Arrives s m x) (passes : Passes s m x)
    (kind : reqKind x.opc = .rd64 ∨ reqKind x.opc = .rd128 ∨ reqKind x.opc = .ldr ∨ reqKind x.opc = .stc ∨
      reqKind x.opc = .amo)
    (unanswered : reqKind x.opc = .rd64 → (s.hlm.get m).fenced x.hdr.port = true ∨
      (s.hlm.get m).forwardOf x.hdr.port (s.hlm.get m).seq x.hdr.addr = none) :
    exec i s = .next ((charged s m x).updHlm m fun h =>
      { h with crRead := h.crRead - 1, seq := h.seq + 1,
               tags := h.tags ++ [tagOf s m x (some (s.map.server (s.map.decode x.hdr.addr).chan))],
               ingress := h.ingress ++ [accepted s m x] }) := by
  have path : (reqKind x.opc).onPath = true := by
    obtain is | is | is | is | is := kind <;> rw [is] <;> rfl
  have credit : (reqKind x.opc).credit = .read := by
    obtain is | is | is | is | is := kind <;> rw [is] <;> rfl
  have tracked : reqKind x.opc ≠ .hint := by
    obtain is | is | is | is | is := kind <;> rw [is] <;> decide
  have read : ¬ (reqKind x.opc = .wr64 ∨ reqKind x.opc = .wrp) := by
    obtain is | is | is | is | is := kind <;> rw [is] <;> decide
  rw [exec_of_requestOf request, recvReq_of_passes arrives passes path, credit]
  refine congrArg Host.Outcome.next (updHlm_congr ?_)
  exact takeIn_queued x.hdr s.now ⟨read, unanswered⟩ tracked

end

/-- Settles O8: the request takes its place in the module (`recvReq_of_passes`), which its kind and the posted writes
decide. -/
theorem requestIsQueued : Obligations.RequestIsQueued := by
  unfold Obligations.RequestIsQueued
  refine ⟨fun i m x s request kind arrives passes unanswered => ?_, fun i m x s request kind arrives passes => ?_,
    fun m hd s arrives passes => ?_, fun m hd w s arrives passes free youngest whole => ?_⟩
  · exact exec_queued request arrives passes (kind.imp_right (Or.imp_right .inl)) unanswered
  · refine exec_queued request arrives passes (.inr (.inr (.inr kind))) fun rd64 => ?_
    rw [rd64] at kind
    obtain is | is := kind <;> cases is
  · rw [exec_of_requestOf (i := .hint m hd) rfl, recvReq_of_passes arrives passes rfl]
    refine congrArg Host.Outcome.next (updHlm_congr ?_)
    exact takeIn_hint hd s.now rfl
  · rw [exec_of_requestOf (i := .rd64 m hd) rfl, recvReq_of_passes arrives passes rfl]
    refine ⟨_, rfl, ?_⟩
    have answers : (s.hlm.get m).forwardOf hd.port (s.hlm.get m).seq hd.addr = some w := by
      unfold Hlm.forwardOf
      rw [youngest]
      exact if_pos whole
    obtain ⟨ingress, posted, crRead, txq⟩ := takeIn_forwarded (h := (s.hlm.get m).creditUse .read)
      (r := accepted s m (reqMsg 0x01 hd 0)) hd s.now rfl free answers
    rw [updHlm_hlm, upd_get_same]
    exact ⟨ingress, posted, txq, crRead, fun k ne => upd_get_ne _ _ _ _ ne, rfl, rfl, rfl⟩

end Sys2Proof.Machine
end

section
/-! PROOFS. The crossbar: what a granted request and a granted response do to the module and to the channel. -/

namespace Sys2Proof.Machine

/-! ## A response that leaves lets a read of a scrub pass go on (R129, R131, R133, R230)

A slot of the response queue becomes free with the response granted. A host read in CHAIN whose line a line-buffer slot holds
takes it, and the read of a scrub pass that waits behind this read is answered from the slot too: the scrub engine, which is
part of the management complex, counts its codeword. So the grant of a response does not leave `mgmt` as it was. -/

/-- The line that the two reads in CHAIN ask for. -/
def scrubbedLoc : Loc := ⟨0, 0, 1, 2, 5, 3⟩

/-- Response `i` of a full queue, to port 1 of module 2. -/
def fullQueueResp (i : EntryIx) : Resp :=
  { idx := i, mod := 2, epoch := 0, port := 1, tag := BitVec.ofNat 10 i.val, opc := opRDATA, status := 0, poison := false, dsz := 3,
    data := 9, cls := 3, at_ := 0 }

/-- The entry of response `i`, a read of another row. -/
def fullQueueEntry (i : EntryIx) : Entry :=
  { idx := i, st := .resp, kind := .rd64, cls := 3, gport := 33, tag := BitVec.ofNat 10 i.val,
    loc := { scrubbedLoc with row := BitVec.ofNat 14 (100 + i.val) }, age := i.val }

/-- A host read that waits in CHAIN for room in the response queue. -/
def waitingRead : Entry :=
  { idx := 32, st := .chain, kind := .rd64, cls := 3, gport := 34, tag := 5, loc := scrubbedLoc, age := 32 }

/-- The read of a scrub pass that waits behind it. -/
def waitingScrub : Entry :=
  { idx := 33, st := .chain, kind := .mrd, cls := 15, gport := 0x1FF, tag := 0, loc := scrubbedLoc, maint := true,
    purpose := .scrubRd, age := 33 }

/-- Channel 3 with its response queue full and both reads in its table, every domain powered. -/
def fullQueueState : State :=
  ((State.reset.updPwr fun p => { p with dom := Vector.replicate 39 4 }).updMap fun q =>
      { q with mapped := BitVec.allOnes 64, nsid := 1 }).updChan 3 fun c => c.updSt fun x =>
    { x with
      respq := (List.range 32).map fun i => fullQueueResp (Fin.ofNat 256 i)
      tt := ((List.range 32).map fun i => fullQueueEntry (Fin.ofNat 256 i)) ++ [waitingRead, waitingScrub]
      ageCtr := 34
      lb := upd x.lb 2 fun _ => { line := some scrubbedLoc, data := 7, valid := true } }

theorem fullQueueState_picks : fullQueueState.pickResponse 2 = some (3, fullQueueResp 0) := by decide +kernel

/-- The grant counts a codeword of the scrub pass. -/
theorem fullQueueState_scans :
    (fullQueueState.crossbarResponseGrant 2 .none).mgmt.scrub.scanned ≠ fullQueueState.mgmt.scrub.scanned := by
  decide +kernel

/-- Refutes O33: `fullQueueState` has a response granted that no upset meets, and its `mgmt` changes. -/
theorem not_crossbar : ¬ Obligations.Crossbar := by
  unfold Obligations.Crossbar
  rintro ⟨-, granted⟩
  obtain ⟨t, next, -, -, -, -, -, -, -, -, same, -⟩ := granted 3 2 .none (fullQueueResp 0) fullQueueState (by decide +kernel)
    (by decide +kernel) (by decide +kernel) fullQueueState_picks
  cases next
  exact fullQueueState_scans (congrArg (·.scrub.scanned) (same (by decide)))

end Sys2Proof.Machine
end

section
/-! PROOFS. The Eyespot sampler, and the loss of the reference clock. -/

namespace Sys2Proof.Machine

/-! ## A visit that finds no lock takes back its commands (R314, R324)

A visit puts its commands to the sentinel channels on their way from 9 us after its start. The lock times out after 8 us, the
visit is abandoned, and the SRX of a sentinel that has not gone out is not issued any more: the channel is not as it was. -/

/-- The SRX that a visit which began at 0 sends to a sentinel. -/
def visitSrx : Issued := { op := .srx, at_ := 9000, loc := chanLoc, tim := {} }

/-- Grehielm in Chrysalis with MGMT awake, in a visit whose PLL has been enabled at 0 and does not lock; channel 0, the only
one mapped, is its sentinel, in self-refresh with the SRX of the visit on its way. -/
def unlockedVisit : State :=
  (((State.reset.updMap fun q => { q with mapped := 1, nsid := 1 }).updPwr fun p =>
      { p with state := .chrysMgmt, eye := { p.eye with inVisit := true }, dom := upd p.dom 1 fun _ => 4 }).updClk fun k =>
      { k with refclkOk := true, pllEnabled := true }).updChan 0 fun c => c.updSt fun x =>
    { x with pwr := .selfRefresh, hist := [visitSrx], rowAt := some 9000, lastCmd := 9000 }

/-- When the lock times out, the SRX leaves the history of the sentinel. -/
theorem unlockedVisit_cut :
    (unlockedVisit.pllLockTimeout.chan.get 0).st.hist ≠ (unlockedVisit.chan.get 0).st.hist := by
  decide +kernel

/-- Refutes O51: in `unlockedVisit` the lock times out, and channel 0 does not stay as it was. -/
theorem not_eyespotAndLoss : ¬ Obligations.EyespotAndLoss := by
  unfold Obligations.EyespotAndLoss
  rintro ⟨-, -, -, -, -, -, abandoned⟩
  obtain ⟨t, next, -, -, -, -, -, -, -, same, -⟩ := abandoned unlockedVisit rfl rfl rfl rfl
  cases next
  exact unlockedVisit_cut (by rw [same])

end Sys2Proof.Machine
end

section
/-! PROOFS. The steps of a cold and of a warm boot. -/

namespace Sys2Proof.Machine

/-! ## The domains of a group that is none (R320, R453)

There are 8 BIST groups, 0 to 7, and the quads of group `g` have the domains of numbers `23 + 2 g` and `24 + 2 g`. Of a group
number 8 the numbers run past the last domain and come round to AON and MGMT, which no group powers. -/

/-- The step of the BIST groups with the number past the last group in hand. -/
def pastLastGroup : State := State.reset.updBoot fun b => { b with ph := .cold 7, group := 8, groupRun := true }

/-- R40: the first quad domain of group 8 would be AON. -/
theorem quadDom_pastLastGroup : quadDom (2 * pastLastGroup.boot.group) = 0 := rfl

/-- AON takes its power-up steps at B1 only. -/
theorem pastLastGroup_powering : pastLastGroup.powering 0 = false := rfl

/-- Refutes O53: of the domains of the group in hand the statement does not ask that the group be one of the 8, and at
`pastLastGroup` the domain of a quad is AON, which is not powered. -/
theorem not_bootSteps : ¬ Obligations.BootSteps := by
  unfold Obligations.BootSteps
  rintro ⟨-, -, -, -, -, -, -, -, -, -, powers, -⟩
  have powered := powers 0 pastLastGroup rfl rfl rfl (.inr (.inl quadDom_pastLastGroup.symm))
  rw [pastLastGroup_powering] at powered
  cases powered

end Sys2Proof.Machine
end

section
/-! PROOFS. The time that passes on an empty queue, and the colours of the policer. -/

namespace Sys2Proof.Machine

/-! ## One CC (R157) -/

/-- R157: up to a later time the time base counts each ns where the PLL is locked, and nothing else changes. -/
theorem advance_of_lt {s : State} {t : Nat} (later : s.clk.now < t) : s.advance t = { s with clk := { s.clk with
    now := t,
    timeBase := if s.clk.pllLock = true then s.clk.timeBase + BitVec.ofNat 64 (t - s.clk.now) else s.clk.timeBase } } :=
  congrArg (fun k => { s with clk := k }) (if_neg (Nat.not_le_of_lt later))

/-- A CC is the time of 1 ns. -/
theorem tick_eq (s : State) : s.tick = { s with clk := { s.clk with
    now := s.clk.now + 1, timeBase := if s.clk.pllLock = true then s.clk.timeBase + 1 else s.clk.timeBase } } := by
  unfold State.tick
  rw [advance_of_lt (Nat.lt_add_one _), Nat.add_sub_cancel_left]
  rfl

/-- Log entry 2: on an empty queue a step is one CC. -/
theorem step_of_empty {s : State} (empty : s.pending = []) : step s = .next s.tick := by
  unfold step
  rw [empty]

/-- Settles O2: the step is one CC, and a CC moves the clock alone. -/
theorem idleStepTicks : Obligations.IdleStepTicks := by
  intro s empty
  rw [step_of_empty empty, tick_eq]

/-! ## The colours (R160), in the order of their tests -/

section
variable {p : Port} {l : Nat}

theorem police_off (off : p.en = false) : p.police l = (.green, { p with green := p.green + 1 }) := by
  unfold Port.police
  rw [off]
  rfl

/-- R160: a policer that is on tests the peak bucket, then the committed one. -/
theorem police_on (on : p.en = true) : p.police l =
    if p.tokP < max l 1 then (.red, { p with red := p.red + 1 })
    else if p.tokC < max l 1 then (.yellow, { p with tokP := p.tokP - l, yellow := p.yellow + 1 })
    else (.green, { p with tokC := p.tokC - l, tokP := p.tokP - l, green := p.green + 1 }) := by
  unfold Port.police
  rw [on]
  rfl

theorem police_red (on : p.en = true) (peak : p.tokP < max l 1) :
    p.police l = (.red, { p with red := p.red + 1 }) := by
  rw [police_on on, if_pos peak]

theorem police_yellow (on : p.en = true) (peak : max l 1 ≤ p.tokP) (committed : p.tokC < max l 1) :
    p.police l = (.yellow, { p with tokP := p.tokP - l, yellow := p.yellow + 1 }) := by
  rw [police_on on, if_neg (Nat.not_lt_of_le peak), if_pos committed]

theorem police_green (on : p.en = true) (peak : max l 1 ≤ p.tokP) (committed : max l 1 ≤ p.tokC) :
    p.police l = (.green, { p with tokC := p.tokC - l, tokP := p.tokP - l, green := p.green + 1 }) := by
  rw [police_on on, if_neg (Nat.not_lt_of_le peak), if_neg (Nat.not_lt_of_le committed)]

end

/-- Settles O11: each colour by the lemma on its tests. -/
theorem policerColours : Obligations.PolicerColours :=
  fun _ _ => ⟨police_off, police_red, police_yellow, police_green⟩

end Sys2Proof.Machine
end

section
/-! PROOFS. Scrub passes: the visit of a line that a waiting write stores to. -/

namespace Sys2Proof.Machine

/-! ## A read of a pass that an unissued write answers (R131, R230)

The MRD of a scrub whose nearest older entry to its line is an unissued WR64 or MWR is answered at once from that write's data,
with no column command. The codeword is counted and the MRD ends in the step that visits the line, so no read of the pass is in
the table after it. -/

/-- The line that the pass visits. -/
def writtenLoc : Loc := ⟨0, 0, 1, 2, 5, 3⟩

/-- A WR64 to the line, from port 1 of module 2, that awaits its column command. -/
def waitingWrite : Entry :=
  { idx := 0, st := .wait, kind := .wr64, cls := 3, gport := 33, tag := 7, loc := writtenLoc, data := 9, mask := fullMask false }

/-- Every channel mapped and powered, and a Check pass over the first 4 GiB in hand, of which channel 3, with the write in its
table, has visited no line yet. -/
def scrubOverWrite : State :=
  (((State.reset.updPwr fun p => { p with dom := Vector.replicate 39 4 }).updMap fun q =>
      { q with mapped := BitVec.allOnes 64, nsid := 1 }).updScrub fun b =>
      { b with running := true, held := true, len := 2 ^ 32 }).updChan 3 fun c =>
    { c.updSt fun x => { x with tt := [waitingWrite], ageCtr := 1 } with share := true }

/-- The line lies in the pass, and the maintenance class may take an entry. -/
theorem scrubOverWrite_visits : writtenLoc.row.toNat < scrubOverWrite.map.nrow ∧
    writtenLoc.sid.toNat < scrubOverWrite.map.nsid ∧
    scrubOverWrite.mgmt.scrub.start ≤ scrubOverWrite.map.hostAddr 3 writtenLoc ∧
    scrubOverWrite.map.hostAddr 3 writtenLoc < scrubOverWrite.mgmt.scrub.start + scrubOverWrite.mgmt.scrub.len ∧
    (scrubOverWrite.chan.get 3).visited.contains writtenLoc = false ∧
    (scrubOverWrite.chan.get 3).canTake scrubOverWrite.now (scrubOverWrite.chan.get 3).cfg.maintCls = true := by
  decide +kernel

/-- After the visit the write is the only entry of the table. -/
theorem scrubOverWrite_tt : ((scrubOverWrite.scrubPaceTick 3 writtenLoc).chan.get (3 : Ch)).st.tt = [waitingWrite] := by
  decide +kernel

/-- Refutes O46: `scrubOverWrite` visits a line in Check mode, and the visit leaves no read of the pass in the table. -/
theorem not_maintenance : ¬ Obligations.Maintenance := by
  unfold Obligations.Maintenance
  rintro ⟨visit, -⟩
  obtain ⟨row, sid, above, below, fresh, room⟩ := scrubOverWrite_visits
  obtain ⟨t, next, -, -, -, reads, -⟩ := visit 3 writtenLoc scrubOverWrite rfl row sid above below fresh room
  have after : scrubOverWrite.scrubPaceTick 3 writtenLoc = t := Host.Outcome.next.inj next
  subst after
  obtain ⟨e, mem, scrub, -⟩ := reads (by decide)
  rw [scrubOverWrite_tt, List.mem_singleton] at mem
  subst mem
  cases scrub

end Sys2Proof.Machine
end

section
/-! PROOFS. Refresh: the ticks of a unit after SRX. -/

namespace Sys2Proof.Machine

/-! ## A unit whose SID awaits its first TMP after SRX has no tick (R260)

After SRX the debts stand at 0, and the ticks of a SID begin again once the answer to its TMP has been decoded. The engine keeps
the refresh of the channel meanwhile, but its units do not tick. -/

/-- R467: what the watchdog sees of a channel is no part of its refresh. -/
@[simp] theorem watch_rf (s : State) (n k : Ch) : ((s.watch n).chan.get k).rf = (s.chan.get k).rf := by
  show ((upd s.chan n _).get k).rf = _
  rw [upd_get]
  split
  · rfl
  · rfl

/-- R260: no tick before the TMP of the SID has been decoded. -/
theorem refreshTick_of_waitTmp {s : State} {n : Ch} {b : BankIx}
    (awaits : (s.chan.get n).rf.waitTmp.get (bankSid b) = true) : s.refreshTick n b = s := by
  unfold State.refreshTick
  simp only [awaits, Bool.or_true, Bool.true_or, if_true]

/-- Such a tick leaves every debt as it is. -/
theorem exec_refreshTick_of_waitTmp {s t : State} {n : Ch} {b : BankIx}
    (awaits : (s.chan.get n).rf.waitTmp.get (bankSid b) = true) (next : exec (.refreshTick n b) s = .next t) (k : Ch) :
    (t.chan.get k).rf = (s.chan.get k).rf := by
  have answer : (s.refreshTick n b).watch n = t := Host.Outcome.next.inj next
  rw [← answer, watch_rf, refreshTick_of_waitTmp awaits]

/-- Channel 3 mapped and powered, the PLL locked, its core dies in self-refresh. -/
def diesAsleep : State :=
  (((State.reset.updPwr fun p => { p with dom := Vector.replicate 39 4 }).updClk fun k => { k with pllLock := true }).updMap
      fun q => { q with mapped := BitVec.twoPow 64 3, nsid := 1 }).updChan 3 fun c =>
    c.updSt fun x => { x with pwr := .selfRefresh }

/-- The same channel when its dies have just taken SRX. -/
def diesWoken : State := diesAsleep.exitSr 3

/-- Bank 9 is a unit in use, and the engine keeps its refresh. -/
theorem diesWoken_refreshes : diesWoken.refreshes 3 = true ∧ (diesWoken.chan.get 3).unitOf 9 = 9 ∧
    (bankSid 9).val < diesWoken.map.nsid ∧ (diesWoken.chan.get 3).dieRefreshes 9 = false ∧
    0 < (diesWoken.tim 3).tREFIeff ((diesWoken.chan.get 3).rf.mult.get 9) := by
  decide +kernel

/-- The TMP of its SID is still to be decoded. -/
theorem diesWoken_awaits : (diesWoken.chan.get 3).rf.waitTmp.get (bankSid 9) = true := by decide +kernel

/-- Refutes O43: the statement lets a unit tick while its SID awaits the first TMP after SRX, and in `diesWoken` the debt of
bank 9 does not rise. -/
theorem not_refreshAndTrackers : ¬ Obligations.RefreshAndTrackers := by
  unfold Obligations.RefreshAndTrackers
  rintro ⟨⟨-, ticks, -⟩, -⟩
  obtain ⟨keeps, unit, used, own, interval⟩ := diesWoken_refreshes
  obtain ⟨t, next, -, rises, -⟩ := ticks 3 9 diesWoken keeps unit used own interval
  rw [exec_refreshTick_of_waitTmp diesWoken_awaits next 3] at rises
  omega

end Sys2Proof.Machine
end

section
/-! PROOFS. Command-error recovery: the commands that go out when its wait is over. -/

namespace Sys2Proof.Machine

/-! ## A command error while a die runs a repair sequence (R237, R283, R465)

During a hard-repair sequence no command goes to the pseudo-channel and SID of the repair. A command-error recovery that ends in
it sends the PREab of the seven other ones, and the MRW of the three other SIDs: ten commands, where the statement asks for
twelve of every recovery. -/

/-- A hard repair of bank 9 whose sequence runs. -/
def runningRepair : Repair :=
  { hard := true, loc := bankLoc 9 5 0, phase := 7, nextRd := 16, done := 16, startAt := 30, buf := List.replicate 16 (0, false),
    by_ := none }

/-- Channel 3 mapped and powered, held for the repair; CAERR_n has fallen at 40 and risen at 50. -/
def errorInRepair : State :=
  (((State.reset.updPwr fun p => { p with dom := Vector.replicate 39 4 }).updMap fun q =>
      { q with mapped := BitVec.twoPow 64 3, nsid := 4 }).advance 50).updChan 3 fun c =>
    { c.updSt fun x => { x with recov := .caerrWait 40 50 } with cfg := { c.cfg with hold := true }, repair := some runningRepair }

/-- The recovery waits for the end of step 1. -/
theorem errorInRepair_waits :
    (errorInRepair.chan.get (errorInRepair.map.server 3)).st.recov = .caerrWait 40 50 := by decide +kernel

/-- R237: neither PREab nor MRW goes to pseudo-channel 0 and SID 0. -/
theorem errorInRepair_hist :
    ((errorInRepair.caerrRecoveryWaitDone 3).chan.get (errorInRepair.map.server 3)).st.hist.map (fun p => (p.op, p.loc)) =
      ([16, 32, 48, 64, 80, 96, 112].map fun b => (Zci.preab, bankLoc b 0 0)) ++ ([1, 2, 3].map fun i => (Zci.mrw, dieLoc i)) := by
  decide +kernel

/-- Refutes O45: the statement does not ask that no repair sequence run, and in `errorInRepair` the recovery ends with fewer than
eight PREab and four MRW. -/
theorem not_engineRecovery : ¬ Obligations.EngineRecovery := by
  unfold Obligations.EngineRecovery
  rintro ⟨⟨-, -, -, waitDone, -⟩, -⟩
  obtain ⟨t, next, -, -, -, -, -, twelve, -⟩ := waitDone 3 40 50 errorInRepair errorInRepair_waits
  have after : errorInRepair.caerrRecoveryWaitDone 3 = t := Host.Outcome.next.inj next
  have ten := congrArg List.length errorInRepair_hist
  rw [List.length_map, after] at ten
  exact absurd (ten ▸ twelve) (by decide)

end Sys2Proof.Machine
end

section
/-! PROOFS. Accesses of the register fabric that a command names: aliases, semaphores, mailbox registers. -/

namespace Sys2Proof.Machine

section
variable {s : State} {who : Ident} {a : Access} {v w : Word} {o : Nat}

/-! ## One access, by where its offset lies (R395) -/

/-- A command of the queue is answered with what its access leaves. -/
theorem direct_of_perform {off : Nat} {wr : Option Word} {p : AccRes × State} (on : s.mgmtOn = true)
    (does : s.perform { who := who, org := .direct, off := BitVec.ofNat 24 off, wr := wr } = p) :
    s.direct who off wr = answered p.2 p.1 := by
  unfold State.direct State.access
  rw [if_pos on, if_pos rfl, does]
  rfl

theorem peek_aligned (word : s.peek o = some w) : o % 4 = 0 := by
  unfold State.peek at word
  by_cases aligned : o % 4 = 0
  · exact aligned
  · rw [if_pos aligned] at word
    cases word

theorem peek_global (aligned : o % 4 = 0) (low : o < 0x10000) : s.peek o = s.readGlobal o := by
  unfold State.peek
  rw [if_neg (by omega), if_pos low]

theorem perform_alias (aligned : a.off.toNat % 4 = 0) (low : 0x800000 ≤ a.off.toNat) (high : a.off.toNat < 0xA00000) :
    s.perform a = s.aliasReg a := by
  unfold State.perform
  simp only [if_neg (show ¬ a.off.toNat % 4 ≠ 0 by omega), if_neg (show ¬ 0xF00000 ≤ a.off.toNat by omega),
    if_pos (And.intro low high)]

/-- An assigned offset outside the windows, the aliases and LOG_POP. -/
theorem perform_read (low : a.off.toNat < 0x800000) (noWindow : windowOf a.off.toNat = none) (noPop : a.off.toNat ≠ 0x2000)
    (word : s.peek a.off.toNat = some w) (read : a.wr = none) : s.perform a = s.readReg a w := by
  unfold State.perform
  simp only [if_neg (Decidable.not_not.mpr (peek_aligned word)), if_neg (show ¬ 0xF00000 ≤ a.off.toNat by omega),
    if_neg (show ¬ (0x800000 ≤ a.off.toNat ∧ a.off.toNat < 0xA00000) by omega), noWindow, if_neg noPop, word, read]

theorem perform_write (low : a.off.toNat < 0x800000) (noWindow : windowOf a.off.toNat = none) (noPop : a.off.toNat ≠ 0x2000)
    (word : s.peek a.off.toNat = some w) (write : a.wr = some v) : s.perform a = s.writeReg a v := by
  unfold State.perform
  simp only [if_neg (Decidable.not_not.mpr (peek_aligned word)), if_neg (show ¬ 0xF00000 ≤ a.off.toNat by omega),
    if_neg (show ¬ (0x800000 ≤ a.off.toNat ∧ a.off.toNat < 0xA00000) by omega), noWindow, if_neg noPop, word, write]

theorem windowOf_low (low : o < 0x40000) : windowOf o = none := by
  unfold windowOf
  rw [if_neg (by omega)]

/-- The word written is the argument, not the field of the access. -/
theorem writeReg_wr (wr : Option Word) : s.writeReg { a with wr := wr } v = s.writeReg a v := rfl

theorem writeReg_global (low : a.off.toNat < 0xF000) : s.writeReg a v = s.writeGlobal a.who a.off.toNat v := by
  have noFw : isFwRange a.off.toNat = false := by
    unfold isFwRange
    simp only [Bool.or_eq_false_iff, Bool.and_eq_false_iff, decide_eq_false_iff_not]
    omega
  unfold State.writeReg
  simp only [noFw, Bool.false_eq_true, if_false, if_pos (show a.off.toNat < 0x10000 by omega)]

theorem toNat_ofNat24 (low : o < 0x1000000) : (BitVec.ofNat 24 o).toNat = o := by
  rw [BitVec.toNat_ofNat, Nat.mod_eq_of_lt low]

/-- A command writes a register of the global region. -/
theorem direct_writes_global {p : AccRes × State} (on : s.mgmtOn = true) (low : o < 0xF000) (noPop : o ≠ 0x2000)
    (word : s.peek o = some w) (does : s.writeGlobal who o v = p) : s.direct who o (some v) = answered p.2 p.1 := by
  have off : (BitVec.ofNat 24 o).toNat = o := toNat_ofNat24 (by omega)
  refine direct_of_perform on ?_
  rw [perform_write (w := w) (v := v) (by dsimp only; omega) (windowOf_low (by dsimp only; omega)) (by rwa [off]) (by rwa [off]) rfl,
    writeReg_global (by dsimp only; omega), ← does]
  dsimp only
  rw [off]

/-- A command reads a register of the global region. -/
theorem direct_reads_global {p : AccRes × State} (on : s.mgmtOn = true) (low : o < 0xF000) (noPop : o ≠ 0x2000)
    (word : s.peek o = some w)
    (does : s.readReg { who := who, org := .direct, off := BitVec.ofNat 24 o, wr := none } w = p) :
    s.direct who o none = answered p.2 p.1 := by
  have off : (BitVec.ofNat 24 o).toNat = o := toNat_ofNat24 (by omega)
  refine direct_of_perform on ?_
  rw [perform_read (w := w) (by dsimp only; omega) (windowOf_low (by dsimp only; omega)) (by rwa [off]) (by rwa [off]) rfl, does]

end

/-! ## The places of the mailbox registers, of the semaphores and of GLB_MAP_CFG -/

section
variable {s : State} {o : Nat}

theorem mbOf_reg (k : Mb) (r : Fin 16) : mbOf (0x800 + 16 * k.val + r.val) = some (k, r.val) := by
  unfold mbOf
  rw [if_pos (by omega), show (0x800 + 16 * k.val + r.val - 0x800) / 16 = k.val by omega,
    show (0x800 + 16 * k.val + r.val) % 16 = r.val by omega]
  exact congrArg some (Prod.ext (Fin.ext (Nat.mod_eq_of_lt k.isLt)) rfl)

theorem mbOf_sem (i : SemIx) : mbOf (0xC00 + 4 * i.val) = none := by
  unfold mbOf
  rw [if_neg (by omega)]

theorem mbOf_isSome (some_ : (mbOf o).isSome = true) : 0x800 ≤ o ∧ o < 0x980 := by
  unfold mbOf at some_
  split at some_
  · assumption
  · cases some_

theorem semOf_isSome (some_ : (semOf o).isSome = true) : 0xC00 ≤ o ∧ o < 0xC80 := by
  unfold semOf at some_
  split at some_
  · assumption
  · cases some_

theorem semOf_sem (i : SemIx) : semOf (0xC00 + 4 * i.val) = some i := by
  unfold semOf
  rw [if_pos (by omega), show (0xC00 + 4 * i.val - 0xC00) / 4 = i.val by omega]
  exact congrArg some (Fin.ext (Nat.mod_eq_of_lt i.isLt))

theorem readGlobal_mb (low : 0x800 ≤ o) (high : o < 0x980) : s.readGlobal o =
    some (if o % 16 = 0 then (s.mb (Fin.ofNat 24 ((o - 0x800) / 16))).inw
      else if o % 16 = 4 then (s.mb (Fin.ofNat 24 ((o - 0x800) / 16))).out
      else if o % 16 = 8 then 0 else (s.mb (Fin.ofNat 24 ((o - 0x800) / 16))).status) := by
  unfold State.readGlobal
  simp (disch := omega) only [if_neg, if_pos (And.intro low high)]
  rfl

theorem readGlobal_sem (low : 0xC00 ≤ o) (high : o < 0xC80) :
    s.readGlobal o = some (semWord (s.mgmt.sem.get (Fin.ofNat 32 ((o - 0xC00) / 4)))) := by
  unfold State.readGlobal
  simp (disch := omega) only [if_neg, if_pos (And.intro low high)]

theorem peek_mb (low : 0x800 ≤ o) (high : o < 0x980) (aligned : o % 4 = 0) : ∃ w, s.peek o = some w :=
  ⟨_, (peek_global aligned (by omega)).trans (readGlobal_mb low high)⟩

theorem peek_sem (low : 0xC00 ≤ o) (high : o < 0xC80) (aligned : o % 4 = 0) : ∃ w, s.peek o = some w :=
  ⟨_, (peek_global aligned (by omega)).trans (readGlobal_sem low high)⟩

theorem peek_mapCfg : s.peek 0x200 = some s.map.cfgWord := rfl

end


/-! ## A bit alias (R406, R407) -/

section
variable {s : State} {who : Ident} {a : BitVec 24} {v w : Word}

/-- The three fields of GLB_MAP_CFG after bit 3 of its word has been given the value `b`. -/
theorem putBit_mapFields : ∀ (gran : BitVec 2) (xorCh xorBank b : Bool),
    let w := putBit (w32 (fld 4 (b2n xorBank) + fld 3 (b2n xorCh) + gran.toNat)) 3 b
    w.extractLsb' 0 2 = gran ∧ w.getLsbD 3 = b ∧ w.getLsbD 4 = xorBank := by decide

/-- R107: a write of GLB_MAP_CFG while the map is not frozen. -/
theorem writeMapCfg_of_free (free : s.map.frozen = false) (valid : v.extractLsb' 0 2 ≠ 3) :
    s.writeMapCfg v = (.ok 0, s.updMap fun m => { m with gran := v.extractLsb' 0 2, xorCh := v.getLsbD 3, xorBank := v.getLsbD 4 }) := by
  unfold State.writeMapCfg
  rw [free, if_neg Bool.false_ne_true, if_neg valid]

theorem writeReg_mapCfg (x : Access) : s.writeReg { x with off := BitVec.ofNat 24 0x200 } v = s.writeMapCfg v :=
  writeReg_global (show (BitVec.ofNat 24 0x200).toNat < 0xF000 by decide)

theorem writeMapCfg_putBit (b : Bool) (free : s.map.frozen = false) (valid : s.map.gran ≠ 3) :
    s.writeMapCfg (putBit s.map.cfgWord 3 b) = (.ok 0, s.updMap fun m => { m with xorCh := b }) := by
  obtain ⟨gran, xorCh, xorBank⟩ := putBit_mapFields s.map.gran s.map.xorCh s.map.xorBank b
  change (putBit s.map.cfgWord 3 b).extractLsb' 0 2 = _ at gran
  change (putBit s.map.cfgWord 3 b).getLsbD 3 = _ at xorCh
  change (putBit s.map.cfgWord 3 b).getLsbD 4 = _ at xorBank
  rw [writeMapCfg_of_free free (by rwa [gran]), gran, xorCh, xorBank]
  rfl

theorem aliasOf_global (low : 0x800000 ≤ a.toNat) (high : a.toNat < 0xA00000) :
    (aliasOf a.toNat).1 < 0x10000 ∧ (aliasOf a.toNat).1 % 4 = 0 := by
  unfold aliasOf
  omega

/-- A write of an alias of LOG_POP, of a mailbox register or of a semaphore is refused. -/
theorem aliasReg_denied {x : Access} {o b : Nat} (alias_ : aliasOf x.off.toNat = (o, b))
    (word : o ≠ 0x2000 → ∃ w, s.peek o = some w) (write : x.wr = some v)
    (special : (mbOf o).isSome = true ∨ (semOf o).isSome = true ∨ o = 0x2000) :
    s.aliasReg x = (.err errDENIED, s) := by
  unfold State.aliasReg
  rw [alias_]
  dsimp only
  split
  · rfl
  · next noPop =>
    obtain ⟨w, word⟩ := word noPop
    have : ((mbOf o).isSome || (semOf o).isSome) = true := by
      rcases special with mb | sem | pop
      · rw [mb]; rfl
      · rw [sem, Bool.or_true]
      · exact absurd pop noPop
    simp only [word, write, this, if_true]

theorem aliasReg_write {x : Access} {o b : Nat} (alias_ : aliasOf x.off.toNat = (o, b)) (noPop : o ≠ 0x2000)
    (noMb : mbOf o = none) (noSem : semOf o = none) (word : s.peek o = some w) (write : x.wr = some v) :
    s.aliasReg x = s.writeReg { x with off := BitVec.ofNat 24 o } (putBit w b (v.getLsbD 0)) := by
  unfold State.aliasReg
  rw [alias_]
  simp only [if_neg noPop, word, write, noMb, noSem, Option.isSome_none, Bool.or_self, Bool.false_eq_true, if_false]

theorem direct_alias {p : AccRes × State} (on : s.mgmtOn = true) (aligned : a.toNat % 4 = 0) (low : 0x800000 ≤ a.toNat)
    (high : a.toNat < 0xA00000) (does : s.aliasReg { who := who, org := .direct, off := a, wr := some v } = p) :
    s.direct who a.toNat (some v) = answered p.2 p.1 := by
  refine direct_of_perform on ?_
  rw [BitVec.ofNat_toNat, BitVec.setWidth_eq, perform_alias aligned low high, does]

/-- The write of an ordinary register, as its alias's is. -/
theorem direct_plain {o : Nat} (on : s.mgmtOn = true) (plain : plainOff o = true) (word : s.peek o = some w) :
    s.direct who o (some v) = answered (s.writeReg { who := who, org := .direct, off := BitVec.ofNat 24 o, wr := some v } v).2
      (s.writeReg { who := who, org := .direct, off := BitVec.ofNat 24 o, wr := some v } v).1 := by
  unfold plainOff at plain
  simp only [Bool.and_eq_true, decide_eq_true_eq, Option.isNone_iff_eq_none, bne_iff_ne, beq_iff_eq] at plain
  obtain ⟨⟨⟨⟨⟨⟨-, low⟩, noWindow⟩, -⟩, -⟩, noPop⟩, -⟩ := plain
  have off : (BitVec.ofNat 24 o).toNat = o := toNat_ofNat24 (by omega)
  exact direct_of_perform on
    (perform_write (by rwa [off]) (by rwa [off]) (by rwa [off]) (by rwa [off]) rfl)

theorem exec_alias_plain {o b : Nat} (on : s.mgmtOn = true) (aligned : a.toNat % 4 = 0) (low : 0x800000 ≤ a.toNat)
    (high : a.toNat < 0xA00000) (alias_ : aliasOf a.toNat = (o, b)) (word : s.peek o = some w) (plain : plainOff o = true) :
    exec (.aliasWrite who a v) s = exec (.registerWrite who (.off (BitVec.ofNat 24 o)) (putBit w b (v.getLsbD 0))) s := by
  have places := plain
  unfold plainOff at places
  simp only [Bool.and_eq_true, decide_eq_true_eq, Option.isNone_iff_eq_none, bne_iff_ne] at places
  obtain ⟨⟨⟨⟨⟨⟨-, below⟩, -⟩, noMb⟩, noSem⟩, noPop⟩, -⟩ := places
  have off : (BitVec.ofNat 24 o).toNat = o := toNat_ofNat24 (by omega)
  have aliased := direct_alias (who := who) (v := v) on aligned low high (aliasReg_write alias_ noPop noMb noSem word rfl)
  show Host.Outcome.next (s.direct who a.toNat (some v)) = .next (s.direct who (BitVec.ofNat 24 o).toNat _)
  rw [off, direct_plain on plain word, aliased]
  exact congrArg (fun p => Host.Outcome.next (answered p.2 p.1))
    (writeReg_wr (a := { who := who, org := .direct, off := BitVec.ofNat 24 o, wr := some (putBit w b (v.getLsbD 0)) }) (some v))

theorem exec_alias_denied (on : s.mgmtOn = true) (aligned : a.toNat % 4 = 0) (low : 0x800000 ≤ a.toNat)
    (high : a.toNat < 0xA00000)
    (special : (mbOf (aliasOf a.toNat).1).isSome = true ∨ (semOf (aliasOf a.toNat).1).isSome = true ∨ (aliasOf a.toNat).1 = 0x2000) :
    exec (.aliasWrite who a v) s = .next (answered s (.err errDENIED)) := by
  obtain ⟨-, word⟩ := aliasOf_global low high
  refine congrArg Host.Outcome.next (direct_alias on aligned low high (aliasReg_denied (Prod.eta _).symm (fun noPop => ?_) rfl special))
  rcases special with mb | sem | pop
  · obtain ⟨first, last⟩ := mbOf_isSome mb
    exact peek_mb first last word
  · obtain ⟨first, last⟩ := semOf_isSome sem
    exact peek_sem first last word
  · exact absurd pop noPop

theorem direct_mapCfg (on : s.mgmtOn = true) (free : s.map.frozen = false) (valid : v.extractLsb' 0 2 ≠ 3) :
    s.direct who 0x200 (some v) = answered (s.updMap fun m =>
      { m with gran := v.extractLsb' 0 2, xorCh := v.getLsbD 3, xorBank := v.getLsbD 4 }) (.ok 0) :=
  direct_writes_global on (by decide) (by decide) peek_mapCfg (writeMapCfg_of_free free valid)

theorem direct_alias_mapCfg (on : s.mgmtOn = true) (aligned : a.toNat % 4 = 0) (low : 0x800000 ≤ a.toNat)
    (high : a.toNat < 0xA00000) (bit3 : aliasOf a.toNat = (0x200, 3)) (free : s.map.frozen = false) (valid : s.map.gran ≠ 3) :
    s.direct who a.toNat (some v) = answered (s.updMap fun m => { m with xorCh := v.getLsbD 0 }) (.ok 0) := by
  have written := aliasReg_write (x := { who := who, org := .direct, off := a, wr := some v }) bit3 (by decide) rfl rfl
    (peek_mapCfg (s := s)) rfl
  exact direct_alias on aligned low high
    (written.trans ((writeReg_mapCfg _).trans (writeMapCfg_putBit (v.getLsbD 0) free valid)))

end

/-- Settles O22: each form of an alias by the lemma on it. -/
theorem aliasWritesOneBit : Obligations.AliasWritesOneBit := by
  unfold Obligations.AliasWritesOneBit
  intro who a v s on aligned low high
  exact ⟨fun w => exec_alias_plain on aligned low high (Prod.eta _).symm, exec_alias_denied on aligned low high,
    fun bit3 free valid => congrArg Host.Outcome.next (direct_alias_mapCfg on aligned low high bit3 free valid)⟩

/-! ## Semaphores (R356) -/

section
variable {s : State} {who w : Ident} {i : SemIx} {v : Word}

/-- The value of a held semaphore: bit 11 over the owner's identity. -/
theorem semWord_held (w : Ident) : semWord (some w) = 0x800 ||| w.setWidth 32 := by
  have owner : w.toNat < 2 ^ 11 := w.isLt
  have joined : 0x800 + w.toNat = 0x800 ||| w.toNat := Nat.two_pow_add_eq_or_of_lt owner 1
  refine BitVec.eq_of_toNat_eq ?_
  rw [BitVec.toNat_or, BitVec.toNat_setWidth, Nat.mod_eq_of_lt (show w.toNat < 2 ^ 32 by omega)]
  show (0x800 + w.toNat) % 2 ^ 32 = _
  rw [Nat.mod_eq_of_lt (by omega), joined]
  rfl

theorem readSem_free (free : s.mgmt.sem.get i = none) : s.readSem who i = (.ok 0, s.setSem i (some who)) := by
  unfold State.readSem
  rw [free]

theorem readSem_held (held : s.mgmt.sem.get i = some w) : s.readSem who i = (.ok (0x800 ||| w.setWidth 32), s) := by
  unfold State.readSem
  rw [held, ← semWord_held]

theorem writeSem_free (free : s.mgmt.sem.get i = none) : s.writeSem who i v = (.err errDENIED, s) := by
  unfold State.writeSem
  rw [free]

theorem writeSem_release (held : s.mgmt.sem.get i = some w) (owns : who = w ∨ who = fwIdent)
    (value : v = 0x800 ||| w.setWidth 32) : s.writeSem who i v = (.ok 0, s.setSem i none) := by
  unfold State.writeSem
  simp only [held, semWord_held]
  rw [if_pos ⟨owns, value⟩]

theorem writeSem_denied (held : s.mgmt.sem.get i = some w)
    (other : ¬ ((who = w ∨ who = fwIdent) ∧ v = 0x800 ||| w.setWidth 32)) :
    s.writeSem who i v = (.err errDENIED, s) := by
  unfold State.writeSem
  simp only [held, semWord_held]
  rw [if_neg other]

theorem direct_semRead {p : AccRes × State} (on : s.mgmtOn = true) (does : s.readSem who i = p) :
    s.direct who (0xC00 + 4 * i.val) none = answered p.2 p.1 := by
  obtain ⟨w, word⟩ := peek_sem (s := s) (o := 0xC00 + 4 * i.val) (by omega) (by omega) (by omega)
  refine direct_reads_global on (by omega) (by omega) word ?_
  unfold State.readReg
  rw [toNat_ofNat24 (show 0xC00 + 4 * i.val < 0x1000000 by omega)]
  simp only [mbOf_sem, semOf_sem, does]

theorem direct_semWrite {p : AccRes × State} (on : s.mgmtOn = true) (does : s.writeSem who i v = p) :
    s.direct who (0xC00 + 4 * i.val) (some v) = answered p.2 p.1 := by
  obtain ⟨w, word⟩ := peek_sem (s := s) (o := 0xC00 + 4 * i.val) (by omega) (by omega) (by omega)
  refine direct_writes_global on (by omega) (by omega) word ?_
  unfold State.writeGlobal
  simp only [mbOf_sem, semOf_sem, does]

theorem exec_semRead {p : AccRes × State} (on : s.mgmtOn = true) (does : s.readSem who i = p) :
    exec (.semRead who i) s = .next (answered p.2 p.1) :=
  congrArg Host.Outcome.next (direct_semRead on does)

theorem exec_semWrite {p : AccRes × State} (on : s.mgmtOn = true) (does : s.writeSem who i v = p) :
    exec (.semWrite who i v) s = .next (answered p.2 p.1) :=
  congrArg Host.Outcome.next (direct_semWrite on does)

end

/-- Settles O23: the read and the write of a semaphore, free and held. -/
theorem semaphores : Obligations.Semaphores := by
  unfold Obligations.Semaphores
  intro who i v s on
  exact ⟨fun free => ⟨exec_semRead on (readSem_free free), exec_semWrite on (writeSem_free free)⟩, fun w held =>
    ⟨exec_semRead on (readSem_held held), fun owns value => exec_semWrite on (writeSem_release held owns value),
      fun other => exec_semWrite on (writeSem_denied held other)⟩⟩

/-! ## The owner's side of a mailbox channel (R342, R345, R348) -/

section
variable {s : State} {who : Ident} {k : Mb} {v : Word}

@[simp] theorem updMb_mb_same (f : Mailbox → Mailbox) : (s.updMb k f).mb k = f (s.mb k) := upd_get_same _ _ _

theorem updMb_mb_ne {j : Mb} (f : Mailbox → Mailbox) (ne : j ≠ k) : (s.updMb k f).mb j = s.mb j :=
  upd_get_ne _ _ _ _ ne

/-- A mailbox is changed by what is made of its content alone. -/
theorem updMb_congr {f g : Mailbox → Mailbox} (same : f (s.mb k) = g (s.mb k)) : s.updMb k f = s.updMb k g :=
  congrArg (fun b => s.updMgmt fun q => { q with mb := b }) (upd_congr _ _ same)

/-- R346: the fields of a command word. -/
theorem word_fields (w : Word) : w = cmdStamp w ++ cmdOpcode w ++ cmdTag w ++ cmdArg w := by
  unfold cmdStamp cmdOpcode cmdTag cmdArg
  rw [BitVec.extractLsb'_append_extractLsb'_eq_extractLsb' (show 21 = 14 + 7 from rfl),
    BitVec.extractLsb'_append_extractLsb'_eq_extractLsb' (show 14 = 12 + 2 from rfl),
    BitVec.extractLsb'_append_extractLsb'_eq_extractLsb' (show 12 = 0 + 12 from rfl)]
  exact BitVec.extractLsb'_eq_self.symm

theorem peek_inbound : s.peek (0x800 + 16 * k.val) = some (s.mb k).inw := by
  rw [peek_global (by omega) (by omega), readGlobal_mb (by omega) (by omega), if_pos (by omega),
    show (0x800 + 16 * k.val - 0x800) / 16 = k.val by omega]
  exact congrArg (fun j => some (s.mb j).inw) (Fin.ext (Nat.mod_eq_of_lt k.isLt))

/-- A command writes the register of a mailbox channel. -/
theorem direct_writes_mb {p : AccRes × State} (r : Fin 16) (on : s.mgmtOn = true) (aligned : r.val % 4 = 0)
    (does : s.writeMb who k r.val v = p) : s.direct who (0x800 + 16 * k.val + r.val) (some v) = answered p.2 p.1 := by
  obtain ⟨w, word⟩ := peek_mb (s := s) (o := 0x800 + 16 * k.val + r.val) (by omega) (by omega) (by omega)
  refine direct_writes_global on (by omega) (by omega) word ?_
  unfold State.writeGlobal
  simp only [mbOf_reg, does]

theorem exec_mailboxInboundWrite {p : AccRes × State} (on : s.mgmtOn = true) (does : s.writeMb who k 0 v = p) :
    exec (.mailboxInboundWrite who k v) s = .next (answered p.2 p.1) :=
  congrArg Host.Outcome.next (direct_writes_mb 0 on rfl does)

theorem exec_outTake {p : AccRes × State} (on : s.mgmtOn = true) (does : s.writeMb who k 8 v = p) :
    exec (.outTake who k v) s = .next (answered p.2 p.1) := by
  have := direct_writes_mb 8 on rfl does
  rw [show 0x800 + 16 * k.val + (8 : Fin 16).val = 0x808 + 16 * k.val by omega] at this
  exact congrArg Host.Outcome.next this

theorem writeMb_inbound (owns : (s.mb k).owner = some who) : s.writeMb who k 0 v = (.ok 0, s.inboundWrite who k v) := by
  unfold State.writeMb Mailbox.allows
  simp only [owns, beq_self_eq_true, Bool.or_true, Bool.not_true, Bool.false_eq_true, if_false, if_true]

/-- R342, R348: the two registers that the owner alone writes. -/
theorem writeMb_denied (other : (s.mb k).owner ≠ some who) :
    s.writeMb who k 0 v = (.err errDENIED, s) ∧ s.writeMb who k 8 v = (.err errDENIED, s) := by
  constructor
  · unfold State.writeMb
    simp only [if_neg other, if_true, ite_self]
  · unfold State.writeMb
    simp only [if_neg other, if_true, if_neg (show ¬ 8 = 0 by decide), ite_self]

theorem inboundWrite_full (full : (s.mb k).inFull = true) :
    s.inboundWrite who k v = s.updMb k fun b => { b with inOvf := satInc b.inOvf } := by
  unfold State.inboundWrite
  rw [if_pos full]

theorem inboundWrite_empty (empty : (s.mb k).inFull = false) : s.inboundWrite who k v =
    (s.updMb k fun b => { b with inw := who ++ v.extractLsb' 0 21, inFull := true, wake := true }).wakePriri := by
  unfold State.inboundWrite
  rw [if_neg (by rw [empty]; exact Bool.false_ne_true)]

theorem wakePriri_of_awake (awake : s.fw.waiting = false) : s.wakePriri = s := by
  unfold State.wakePriri
  rw [if_neg (by rw [awake]; exact Bool.false_ne_true)]

/-- R310, R350: whatever entry ends with it, the waking of Priri touches no mailbox, no module and no stored data. -/
theorem wakePriri_frame (s : State) : s.wakePriri.mgmt.mb = s.mgmt.mb ∧ s.wakePriri.mgmt.fw.waiting = false ∧
    s.wakePriri.hlm = s.hlm ∧ s.wakePriri.dram = s.dram := by
  unfold State.wakePriri State.abortEntry
  split
  · split <;> exact ⟨rfl, rfl, rfl, rfl⟩
  · next awake => exact ⟨rfl, Bool.eq_false_iff.mpr awake, rfl, rfl⟩

end

/-- Settles O30: what the write of each register of a channel does, by the channel's owner and its full flag. -/
theorem inboundStamp : Obligations.InboundStamp := by
  unfold Obligations.InboundStamp
  refine ⟨fun who k v s on owns empty awake => ?_, fun who k v s on owns empty waiting => ?_, word_fields,
    fun k s => peek_inbound, fun who k v s on owns full => ?_, fun who k v s on other => ?_⟩
  · rw [exec_mailboxInboundWrite on (writeMb_inbound owns), inboundWrite_empty empty]
    exact congrArg (fun t => Host.Outcome.next (answered t (.ok 0))) (wakePriri_of_awake awake)
  · rw [exec_mailboxInboundWrite on (writeMb_inbound owns), inboundWrite_empty empty]
    obtain ⟨mb, awake, hlm, dram⟩ := wakePriri_frame
      (s.updMb k fun b => { b with inw := who ++ v.extractLsb' 0 21, inFull := true, wake := true })
    refine ⟨_, rfl, ?_, fun j ne => ?_, awake, hlm, dram⟩
    · exact (congrArg (fun b => b.get k) mb).trans (upd_get_same _ _ _)
    · exact (congrArg (fun b => b.get j) mb).trans (upd_get_ne _ _ _ _ ne)
  · rw [exec_mailboxInboundWrite on (writeMb_inbound owns), inboundWrite_full full]
  · obtain ⟨inbound, outbound⟩ := writeMb_denied (v := v) other
    exact ⟨exec_mailboxInboundWrite on inbound, exec_outTake on outbound⟩

end Sys2Proof.Machine
end

section
/-! PROOFS. Accesses of several agents in one MC cycle (R400, R407). -/

namespace Sys2Proof.Machine

/-! ## An access leaves the list of the accesses performed -/

theorem ite_tied {c : Prop} [Decidable c] {t u : State} {l : List (TiedAcc × AccRes)} (yes : t.mgmt.tied = l)
    (no : u.mgmt.tied = l) : (if c then t else u).mgmt.tied = l := by
  split
  · exact yes
  · exact no

section
variable (s : State)

theorem abortEntry_tied (c : BitVec 4) : (s.abortEntry c).mgmt.tied = s.mgmt.tied := by
  unfold State.abortEntry
  split <;> rfl

theorem wakePriri_tied : s.wakePriri.mgmt.tied = s.mgmt.tied := by
  unfold State.wakePriri
  split
  · exact abortEntry_tied s 4
  · rfl

theorem inboundWrite_tied (who : Ident) (k : Mb) (v : Word) : (s.inboundWrite who k v).mgmt.tied = s.mgmt.tied := by
  unfold State.inboundWrite
  split
  · rfl
  · exact wakePriri_tied _

theorem startWarm_tied (kind : BitVec 3) : (s.startWarm kind).mgmt.tied = s.mgmt.tied := by
  unfold State.startWarm
  split
  · rfl
  · split <;> rfl
  · split <;> rfl
  · rfl

theorem takeOut_tied (k : Mb) : (s.takeOut k).mgmt.tied = s.mgmt.tied :=
  ite_tied rfl (ite_tied ((startWarm_tied _ 2).trans (ite_tied rfl rfl)) (ite_tied rfl rfl))

theorem writeMb_tied (who : Ident) (k : Mb) (o : Nat) (v : Word) : (s.writeMb who k o v).2.mgmt.tied = s.mgmt.tied := by
  unfold State.writeMb
  split
  · rfl
  · split
    · split
      · exact inboundWrite_tied ..
      · rfl
    · split
      · split
        · dsimp only
          split
          · exact takeOut_tied ..
          · rfl
        · rfl
      · rfl

theorem readSem_tied (who : Ident) (i : SemIx) : (s.readSem who i).2.mgmt.tied = s.mgmt.tied := by
  unfold State.readSem
  split <;> rfl

theorem writeSem_tied (who : Ident) (i : SemIx) (v : Word) : (s.writeSem who i v).2.mgmt.tied = s.mgmt.tied := by
  unfold State.writeSem
  split
  · rfl
  · split <;> rfl

theorem writeMapCfg_tied (v : Word) : (s.writeMapCfg v).2.mgmt.tied = s.mgmt.tied := by
  unfold State.writeMapCfg
  split
  · rfl
  · split <;> rfl

/-- A write that a field map may refuse: a refused one changes nothing. -/
theorem wrote_tied {α : Type} (r : Option α) {f : α → State} (kept : ∀ x, (f x).mgmt.tied = s.mgmt.tied) :
    (wrote s r f).2.mgmt.tied = s.mgmt.tied := by
  cases r with
  | none => rfl
  | some x => exact kept x

theorem levelCheck_tied (old : Nat) : (State.levelCheck old s).mgmt.tied = s.mgmt.tied := by
  unfold State.levelCheck
  dsimp only
  split <;> rfl

theorem logFlush_tied : s.logFlush.mgmt.tied = s.mgmt.tied := levelCheck_tied _ _

theorem writeGlobal_tied (who : Ident) (o : Nat) (v : Word) : (s.writeGlobal who o v).2.mgmt.tied = s.mgmt.tied := by
  unfold State.writeGlobal
  split
  · exact writeMb_tied ..
  · exact writeSem_tied ..
  · split
    · exact writeMapCfg_tied ..
    · split
      · rfl
      · split
        · rfl
        · split
          · exact wrote_tied s _ fun _ => rfl
          · split
            · exact wrote_tied s _ fun _ => rfl
            · split
              · dsimp only
                split
                · exact logFlush_tied _
                · rfl
              · rfl

theorem writePosted_tied (off : BitVec 24) (v : Word) : (s.writePosted off v).2.mgmt.tied = s.mgmt.tied := by
  unfold State.writePosted
  dsimp only
  split
  · rfl
  · split
    · split <;> rfl
    · rfl

theorem linkReset_tied (m : Mod) : (s.linkReset m).mgmt.tied = s.mgmt.tied := by
  unfold State.linkReset
  dsimp only [State.drawNat]
  split
  · split
    · exact abortEntry_tied _ _
    · rfl
  · rfl

theorem writeRetrain_tied (org : Origin) (m : Mod) : (s.writeRetrain org m).mgmt.tied = s.mgmt.tied := by
  unfold State.writeRetrain
  split
  · split
    · exact linkReset_tied ..
    · rfl
  all_goals exact linkReset_tied ..

theorem writeFwRange_tied (a : Access) (v : Word) : (s.writeFwRange a v).2.mgmt.tied = s.mgmt.tied := by
  unfold State.writeFwRange
  dsimp only
  split
  · dsimp only
    split <;> rfl
  · split <;> rfl

theorem mirror_tied (n : Ch) : (s.mirror n).mgmt.tied = s.mgmt.tied := by
  unfold State.mirror
  split <;> rfl

theorem setChan_tied (n : Ch) (o : Nat) (c : Chan) : (s.setChan n o c).mgmt.tied = s.mgmt.tied := by
  have banks (t : State) : (if o = 4 ∧ t.map.isFollower n = false then t.updBanks n Chan.pageIndexes else t).mgmt.tied =
      t.mgmt.tied := ite_tied (mirror_tied _ n) rfl
  exact ite_tied (banks _) (banks _)

theorem writeReg_tied (a : Access) (v : Word) : (s.writeReg a v).2.mgmt.tied = s.mgmt.tied := by
  unfold State.writeReg
  dsimp only
  split
  · exact writeFwRange_tied ..
  · split
    · exact writeGlobal_tied ..
    · split
      · exact writePosted_tied ..
      · split
        · rfl
        · split
          · refine wrote_tied s _ fun _ => ?_
            split
            · rfl
            · split
              · exact writeRetrain_tied ..
              · rfl
          · split
            · refine wrote_tied s _ fun _ => ?_
              split <;> rfl
            · refine wrote_tied s _ fun _ => ?_
              split
              · rfl
              · exact setChan_tied ..

theorem popLog_tied (a : Access) : (s.popLog a).2.mgmt.tied = s.mgmt.tied := by
  unfold State.popLog
  split <;> rfl

theorem readReg_tied (a : Access) (w : Word) : (s.readReg a w).2.mgmt.tied = s.mgmt.tied := by
  unfold State.readReg
  split
  · split <;> rfl
  · split
    · exact readSem_tied ..
    · split <;> rfl

theorem stagingGo_tied (who : Ident) (v : Word) : (s.stagingGo who v).mgmt.tied = s.mgmt.tied :=
  ite_tied rfl (ite_tied rfl rfl)

theorem stagingAccess_tied (a : Access) (k : Mb) (b : Nat) : (s.stagingAccess a k b).2.mgmt.tied = s.mgmt.tied := by
  unfold State.stagingAccess
  dsimp only
  split
  · rfl
  · split
    · rfl
    · split
      · rfl
      · dsimp only
        split
        · exact stagingGo_tied ..
        · rfl

theorem windowReg_tied (a : Access) (k : Mb) (b : Nat) : (s.windowReg a k b).2.mgmt.tied = s.mgmt.tied := by
  unfold State.windowReg State.windowAccess
  split
  · exact stagingAccess_tied ..
  · split
    · rfl
    · split
      · rfl
      · split <;> rfl

theorem aliasReg_tied (a : Access) : (s.aliasReg a).2.mgmt.tied = s.mgmt.tied := by
  unfold State.aliasReg
  rcases aliasOf a.off.toNat with ⟨o, b⟩
  dsimp only
  split
  · rfl
  · split
    · rfl
    · split
      · split
        · split <;> rfl
        · split <;> rfl
      · split
        · rfl
        · exact writeReg_tied s _ _

theorem perform_tied (a : Access) : (s.perform a).2.mgmt.tied = s.mgmt.tied := by
  unfold State.perform
  dsimp only
  split
  · rfl
  · split
    · split <;> rfl
    · split
      · exact aliasReg_tied ..
      · split
        · exact windowReg_tied ..
        · split
          · split
            · rfl
            · exact popLog_tied ..
          · split
            · rfl
            · split
              · exact readReg_tied ..
              · exact writeReg_tied ..

theorem direct_tied (who : Ident) (off : Nat) (wr : Option Word) : (s.direct who off wr).mgmt.tied = s.mgmt.tied := by
  unfold State.direct
  split
  · exact perform_tied s { who := who, org := .direct, off := BitVec.ofNat 24 off, wr := wr }
  · rfl

end


/-! ## The accesses of one MC cycle, one after another -/

/-- One of the accesses of an MC cycle, with its answer. -/
def State.tiedStep (s : State) (x : TiedAcc) : State :=
  (s.direct x.who x.off.toNat x.wr).updMgmt fun g => { g with tied := g.tied ++ [(x, g.lastAcc)] }

/-- The state before the first of them. -/
def State.tiedStart (s : State) : State := s.updMgmt fun g => { g with tied := [] }

section
variable {s : State} {x y z : TiedAcc} {l : List TiedAcc}

theorem performTied_eq : s.performTied l = (l.foldr insertTied []).foldl State.tiedStep s.tiedStart := rfl

theorem tiedStep_tied_length : (s.tiedStep x).mgmt.tied.length = s.mgmt.tied.length + 1 := by
  unfold State.tiedStep
  rw [updMgmt_mgmt, List.length_append, direct_tied]
  rfl

theorem insertTied_length : (insertTied x l).length = l.length + 1 := by
  induction l with
  | nil => rfl
  | cons y l ih =>
    unfold insertTied
    split
    · rfl
    · rw [List.length_cons, ih, List.length_cons]

theorem foldr_insertTied_length : (l.foldr insertTied []).length = l.length := by
  induction l with
  | nil => rfl
  | cons x l ih => rw [List.foldr_cons, insertTied_length, ih, List.length_cons]

theorem foldl_tiedStep_tied_length : (l.foldl State.tiedStep s).mgmt.tied.length = s.mgmt.tied.length + l.length := by
  induction l generalizing s with
  | nil => rfl
  | cons x l ih => rw [List.foldl_cons, ih, tiedStep_tied_length, List.length_cons]; omega

/-- Every access of the cycle is performed and answered. -/
theorem performTied_tied_length : (s.performTied l).mgmt.tied.length = l.length := by
  rw [performTied_eq, foldl_tiedStep_tied_length, foldr_insertTied_length]
  exact Nat.zero_add _

theorem performTied_two (first : tiedPlace x ≤ tiedPlace y) :
    s.performTied [x, y] = (s.tiedStart.tiedStep x).tiedStep y := by
  rw [performTied_eq, List.foldr_cons, List.foldr_cons, List.foldr_nil, insertTied, insertTied, if_pos first]
  rfl

theorem performTied_swapped (first : tiedPlace y < tiedPlace x) :
    s.performTied [x, y] = (s.tiedStart.tiedStep y).tiedStep x := by
  rw [performTied_eq, List.foldr_cons, List.foldr_cons, List.foldr_nil, insertTied, insertTied,
    if_neg (Nat.not_le.mpr first)]
  rfl

theorem performTied_last_swapped (first : tiedPlace x ≤ tiedPlace z) (second : tiedPlace z < tiedPlace y) :
    s.performTied [x, y, z] = ((s.tiedStart.tiedStep x).tiedStep z).tiedStep y := by
  rw [performTied_eq, List.foldr_cons, List.foldr_cons, List.foldr_cons, List.foldr_nil, insertTied.eq_1, insertTied.eq_2,
    if_neg (Nat.not_le.mpr second), insertTied.eq_2, if_pos first]
  rfl

theorem tiedStep_of_direct {p : AccRes × State} (does : s.direct x.who x.off.toNat x.wr = answered p.2 p.1) :
    s.tiedStep x = p.2.updMgmt fun g => { g with lastAcc := p.1, tied := g.tied ++ [(x, p.1)] } := by
  unfold State.tiedStep
  rw [does]
  rfl

end

/-! ## Places (R400) -/

section
variable (who : Ident) {o : BitVec 24}

theorem writeRank_lt : writeRank who < 2048 := by
  unfold writeRank
  dsimp only
  split <;> omega

theorem tiedPlace_write (v : Word) (noPop : o ≠ 0x2000) : tiedPlace ⟨who, o, some v⟩ = 1 + writeRank who := by
  unfold tiedPlace
  rw [if_neg noPop]
  rfl

theorem tiedPlace_read (noPop : o ≠ 0x2000) : tiedPlace ⟨who, o, none⟩ = 4096 - writeRank who := by
  unfold tiedPlace
  rw [if_neg noPop]
  rfl

end

/-- Writes go before reads. -/
theorem tiedPlace_write_le_read (who a : Ident) (v : Word) {o p : BitVec 24} (noPop : o ≠ 0x2000) (noPop' : p ≠ 0x2000) :
    tiedPlace ⟨who, o, some v⟩ ≤ tiedPlace ⟨a, p, none⟩ := by
  have := writeRank_lt who
  have := writeRank_lt a
  rw [tiedPlace_write who v noPop, tiedPlace_read a noPop']
  omega

/-- Of two writers the one of the higher rank writes last. -/
theorem performTied_writes {s : State} {who a : Ident} {o p : BitVec 24} {v w : Word} (noPop : o ≠ 0x2000) (noPop' : p ≠ 0x2000)
    (differ : writeRank who ≠ writeRank a) :
    s.performTied [⟨who, o, some v⟩, ⟨a, p, some w⟩] = if writeRank who < writeRank a
      then (s.tiedStart.tiedStep ⟨who, o, some v⟩).tiedStep ⟨a, p, some w⟩
      else (s.tiedStart.tiedStep ⟨a, p, some w⟩).tiedStep ⟨who, o, some v⟩ := by
  have whoPlace := tiedPlace_write who v noPop
  have aPlace := tiedPlace_write a w noPop'
  split
  · exact performTied_two (by omega)
  · exact performTied_swapped (by omega)

/-! ## Writes of GLB_MAP_CFG in one MC cycle (R107, R407) -/

/-- The map after a write of GLB_MAP_CFG. -/
def Map.writeCfg (v : Word) (m : Map) : Map :=
  { m with gran := v.extractLsb' 0 2, xorCh := v.getLsbD 3, xorBank := v.getLsbD 4 }

/-- The map after a write of the alias of bit 3. -/
def Map.writeXorCh (b : Bool) (m : Map) : Map := { m with xorCh := b }

/-- The map alone has changed, and the list of the accesses. -/
structure MapWritten (s t : State) (f : Map → Map) : Prop where
  map : t.map = f s.map
  chan : t.chan = s.chan
  hlm : t.hlm = s.hlm
  port : t.port = s.port
  dram : t.dram = s.dram
  pwr : t.pwr = s.pwr

theorem MapWritten.trans {s t u : State} {f g : Map → Map} (st : MapWritten s t f) (tu : MapWritten t u g) :
    MapWritten s u (g ∘ f) :=
  ⟨tu.map.trans (congrArg g st.map), tu.chan.trans st.chan, tu.hlm.trans st.hlm, tu.port.trans st.port,
    tu.dram.trans st.dram, tu.pwr.trans st.pwr⟩

theorem MapWritten.mgmtOn {s t : State} {f : Map → Map} (st : MapWritten s t f) (on : s.mgmtOn = true) : t.mgmtOn = true := by
  unfold State.mgmtOn
  rw [st.pwr]
  exact on

section
variable {s t : State} {f : Map → Map} {who a : Ident} {v w y : Word}

theorem tiedStart_mapWritten (s : State) : MapWritten s s.tiedStart id := ⟨rfl, rfl, rfl, rfl, rfl, rfl⟩

theorem tiedStep_mapCfg (on : s.mgmtOn = true) (free : s.map.frozen = false) (valid : v.extractLsb' 0 2 ≠ 3) :
    MapWritten s (s.tiedStep ⟨who, 0x200, some v⟩) (Map.writeCfg v) := by
  have does := tiedStep_of_direct (x := ⟨who, 0x200, some v⟩) (p := (.ok 0, s.updMap (Map.writeCfg v))) (direct_mapCfg on free valid)
  rw [does]
  exact ⟨rfl, rfl, rfl, rfl, rfl, rfl⟩

/-- 0x80400C is the alias of bit 3 of GLB_MAP_CFG. -/
theorem tiedStep_alias_mapCfg (on : s.mgmtOn = true) (free : s.map.frozen = false) (valid : s.map.gran ≠ 3) :
    MapWritten s (s.tiedStep ⟨who, 0x80400C, some y⟩) (Map.writeXorCh (y.getLsbD 0)) := by
  have does := tiedStep_of_direct (x := ⟨who, 0x80400C, some y⟩) (p := (.ok 0, s.updMap (Map.writeXorCh (y.getLsbD 0))))
    (direct_alias_mapCfg (a := 0x80400C) on (by decide) (by decide) (by decide) (by decide) free valid)
  rw [does]
  exact ⟨rfl, rfl, rfl, rfl, rfl, rfl⟩

/-- R107: two whole writes: the later one's value stays. -/
theorem tiedSteps_mapCfg (on : s.mgmtOn = true) (free : s.map.frozen = false) (valid : v.extractLsb' 0 2 ≠ 3)
    (valid' : w.extractLsb' 0 2 ≠ 3) :
    MapWritten s ((s.tiedStart.tiedStep ⟨who, 0x200, some v⟩).tiedStep ⟨a, 0x200, some w⟩) (Map.writeCfg w) := by
  have start := tiedStart_mapWritten s
  have first := start.trans (tiedStep_mapCfg (who := who) (start.mgmtOn on) free valid)
  exact first.trans (tiedStep_mapCfg (first.mgmtOn on) (by rw [first.map]; exact free) valid')

/-- R407: the alias's bit after the whole register. -/
theorem tiedSteps_mapCfg_alias (on : s.mgmtOn = true) (free : s.map.frozen = false) (valid : v.extractLsb' 0 2 ≠ 3) :
    MapWritten s ((s.tiedStart.tiedStep ⟨who, 0x200, some v⟩).tiedStep ⟨a, 0x80400C, some y⟩)
      (Map.writeXorCh (y.getLsbD 0) ∘ Map.writeCfg v) := by
  have start := tiedStart_mapWritten s
  have first := start.trans (tiedStep_mapCfg (who := who) (start.mgmtOn on) free valid)
  exact first.trans (tiedStep_alias_mapCfg (first.mgmtOn on) (by rw [first.map]; exact free) (by rw [first.map]; exact valid))

/-- R407: the whole register after the alias's bit. -/
theorem tiedSteps_alias_mapCfg (on : s.mgmtOn = true) (free : s.map.frozen = false) (known : s.map.gran ≠ 3)
    (valid : v.extractLsb' 0 2 ≠ 3) :
    MapWritten s ((s.tiedStart.tiedStep ⟨a, 0x80400C, some y⟩).tiedStep ⟨who, 0x200, some v⟩) (Map.writeCfg v) := by
  have start := tiedStart_mapWritten s
  have first := start.trans (tiedStep_alias_mapCfg (who := a) (y := y) (start.mgmtOn on) free known)
  exact first.trans (tiedStep_mapCfg (first.mgmtOn on) (by rw [first.map]; exact free) valid)

theorem performTied_mapCfg (on : s.mgmtOn = true) (differ : writeRank who ≠ writeRank a) (valid : v.extractLsb' 0 2 ≠ 3)
    (valid' : w.extractLsb' 0 2 ≠ 3) (free : s.map.frozen = false) :
    MapWritten s (s.performTied [⟨who, 0x200, some v⟩, ⟨a, 0x200, some w⟩])
      (Map.writeCfg (if writeRank who < writeRank a then w else v)) := by
  rw [performTied_writes (by decide) (by decide) differ]
  split
  · exact tiedSteps_mapCfg on free valid valid'
  · exact tiedSteps_mapCfg on free valid' valid

theorem performTied_mapCfg_alias (on : s.mgmtOn = true) (free : s.map.frozen = false) (known : s.map.gran ≠ 3)
    (valid : v.extractLsb' 0 2 ≠ 3) (differ : writeRank who ≠ writeRank a) :
    (s.performTied [⟨who, 0x200, some v⟩, ⟨a, 0x80400C, some y⟩]).map =
      { s.map with gran := v.extractLsb' 0 2, xorBank := v.getLsbD 4,
                   xorCh := if writeRank who < writeRank a then y.getLsbD 0 else v.getLsbD 3 } := by
  rw [performTied_writes (by decide) (by decide) differ]
  split
  · exact (tiedSteps_mapCfg_alias on free valid).map
  · exact (tiedSteps_alias_mapCfg on free known valid).map

end

/-! ## Reads and writes of a semaphore in one MC cycle (R356, R357) -/

/-- An access of the cycle that leaves a semaphore with the owner `w` and is answered with `r`. -/
structure SemStep (i : SemIx) (x : TiedAcc) (s : State) (w : Option Ident) (r : AccRes) (t : State) : Prop where
  on : t.mgmtOn = s.mgmtOn
  sem : t.mgmt.sem.get i = w
  tied : t.mgmt.tied = s.mgmt.tied ++ [(x, r)]

section
variable {i : SemIx} {x : TiedAcc} {s : State} {w : Ident}

theorem setSem_sem (owner : Option Ident) : (s.setSem i owner).mgmt.sem.get i = owner := upd_get_same _ _ _

theorem tiedStep_sem {r : AccRes} {t : State} {owner : Option Ident} (on : t.mgmtOn = s.mgmtOn)
    (sem : t.mgmt.sem.get i = owner) (tied : t.mgmt.tied = s.mgmt.tied)
    (does : s.direct x.who x.off.toNat x.wr = answered t r) : SemStep i x s owner r (s.tiedStep x) := by
  rw [tiedStep_of_direct (p := (r, t)) does]
  exact ⟨on, sem, congrArg (· ++ [(x, r)]) tied⟩

theorem tiedStep_acquires (on : s.mgmtOn = true) (here : x.off.toNat = 0xC00 + 4 * i.val) (read : x.wr = none)
    (free : s.mgmt.sem.get i = none) : SemStep i x s (some x.who) (.ok 0) (s.tiedStep x) :=
  tiedStep_sem (t := s.setSem i (some x.who)) rfl (setSem_sem _) rfl (by rw [here, read]; exact direct_semRead on (readSem_free free))

theorem tiedStep_reads_held (on : s.mgmtOn = true) (here : x.off.toNat = 0xC00 + 4 * i.val) (read : x.wr = none)
    (held : s.mgmt.sem.get i = some w) : SemStep i x s (some w) (.ok (0x800 ||| w.setWidth 32)) (s.tiedStep x) :=
  tiedStep_sem rfl held rfl (by rw [here, read]; exact direct_semRead on (readSem_held held))

theorem tiedStep_releases (on : s.mgmtOn = true) (here : x.off.toNat = 0xC00 + 4 * i.val)
    (value : x.wr = some (0x800 ||| x.who.setWidth 32)) (held : s.mgmt.sem.get i = some x.who) :
    SemStep i x s none (.ok 0) (s.tiedStep x) :=
  tiedStep_sem (t := s.setSem i none) rfl (setSem_sem _) rfl (by
    rw [here, value]; exact direct_semWrite on (writeSem_release held (.inl rfl) rfl))

/-- A write of the read-only register at offset 0. -/
theorem direct_zero {who : Ident} {v : Word} (on : s.mgmtOn = true) : s.direct who 0 (some v) = answered s (.ok 0) :=
  direct_writes_global (p := (.ok 0, s)) on (by decide) (by decide) (w := 0x5A13A710) rfl rfl

theorem tiedStep_zero {who : Ident} {v : Word} (on : s.mgmtOn = true) :
    SemStep i ⟨who, 0, some v⟩ s (s.mgmt.sem.get i) (.ok 0) (s.tiedStep ⟨who, 0, some v⟩) :=
  tiedStep_sem rfl rfl rfl (direct_zero on)

end

section
variable {i : SemIx} {who a : Ident} {o : BitVec 24} {v : Word} {s : State}

theorem semOff_not_pop (here : o.toNat = 0xC00 + 4 * i.val) : o ≠ 0x2000 := by
  rintro rfl
  change 0x2000 = _ at here
  omega

/-- R357: of two reads the one of the higher rank acquires; the other sees its owner. -/
theorem performTied_two_reads (on : s.mgmtOn = true) (free : s.mgmt.sem.get i = none) (here : o.toNat = 0xC00 + 4 * i.val)
    (below : writeRank who < writeRank a) :
    (s.performTied [⟨fwIdent, 0, some v⟩, ⟨who, o, none⟩, ⟨a, o, none⟩]).mgmt.sem.get i = some a ∧
    (s.performTied [⟨fwIdent, 0, some v⟩, ⟨who, o, none⟩, ⟨a, o, none⟩]).mgmt.tied =
      [(⟨fwIdent, 0, some v⟩, .ok 0), (⟨a, o, none⟩, .ok 0), (⟨who, o, none⟩, .ok (0x800 ||| a.setWidth 32))] := by
  have noPop := semOff_not_pop here
  have whoPlace := tiedPlace_read who noPop
  have aPlace := tiedPlace_read a noPop
  have rank := writeRank_lt a
  rw [performTied_last_swapped (tiedPlace_write_le_read fwIdent a v (by decide) noPop) (by omega)]
  have ignored := tiedStep_zero (i := i) (s := s.tiedStart) (who := fwIdent) (v := v) on
  have acquires := tiedStep_acquires (x := ⟨a, o, none⟩) (ignored.on.trans on) here rfl (ignored.sem.trans free)
  have sees := tiedStep_reads_held (x := ⟨who, o, none⟩) (acquires.on.trans (ignored.on.trans on)) here rfl acquires.sem
  exact ⟨sees.sem, by rw [sees.tied, acquires.tied, ignored.tied]; rfl⟩

/-- R357: a release goes before a read, which acquires. -/
theorem performTied_release_read (on : s.mgmtOn = true) (held : s.mgmt.sem.get i = some who)
    (here : o.toNat = 0xC00 + 4 * i.val) :
    (s.performTied [⟨who, o, some (0x800 ||| who.setWidth 32)⟩, ⟨a, o, none⟩]).mgmt.sem.get i = some a ∧
    (s.performTied [⟨who, o, some (0x800 ||| who.setWidth 32)⟩, ⟨a, o, none⟩]).mgmt.tied =
      [(⟨who, o, some (0x800 ||| who.setWidth 32)⟩, .ok 0), (⟨a, o, none⟩, .ok 0)] := by
  have noPop := semOff_not_pop here
  rw [performTied_two (tiedPlace_write_le_read who a _ noPop noPop)]
  have releases := tiedStep_releases (s := s.tiedStart) (x := ⟨who, o, some (0x800 ||| who.setWidth 32)⟩) on here rfl held
  have acquires := tiedStep_acquires (x := ⟨a, o, none⟩) (releases.on.trans on) here rfl releases.sem
  exact ⟨acquires.sem, by rw [acquires.tied, releases.tied]; rfl⟩

end

/-- Settles O25: the accesses of the cycle, in the order of their places. -/
theorem oneMcCycle : Obligations.OneMcCycle := by
  unfold Obligations.OneMcCycle
  refine ⟨fun who o l v s _ => ⟨_, rfl, performTied_tied_length⟩, fun who a v w x s on differ valid valid' free last => ?_,
    fun who a v y b s on free known valid differ bit => ?_, fun i who a v o s on free here below => ?_,
    fun i who a o s on held here => ?_⟩
  · have written := performTied_mapCfg on differ valid valid' free
    rw [← last] at written
    exact ⟨_, rfl, written.map, written.chan, written.hlm, written.port, written.dram⟩
  · subst bit
    exact ⟨_, rfl, performTied_mapCfg_alias on free known valid differ⟩
  · obtain ⟨owner, answers⟩ := performTied_two_reads (v := v) on free (here ▸ toNat_ofNat24 (by omega)) below
    exact ⟨_, rfl, owner, by rw [answers]; simp, by rw [answers]; simp⟩
  · obtain ⟨owner, answers⟩ := performTied_release_read (a := a) on held (here ▸ toNat_ofNat24 (by omega))
    exact ⟨_, rfl, owner, by rw [answers]; simp⟩

end Sys2Proof.Machine
end

section
/-! PROOFS. The test wrapper and the debug snapshots. -/

namespace Sys2Proof.Machine

/-! ## The instruction register (R456) -/

section
variable {s : State}

theorem setWir_eq {code act : BitVec 6} (acts : wirActs s.mgmt.fuse.factory code = act) :
    s.setWir code = s.updBoot fun b => { b with wir := act } := by
  unfold State.setWir
  rw [acts]

theorem wirActs_field {code : BitVec 6} (only : code ∈ [0x01, 0x02, 0x20, 0x2F]) : wirActs false code = 0 := by
  have : ∀ c ∈ ([0x01, 0x02, 0x20, 0x2F] : List (BitVec 6)), wirActs false c = 0 := by decide
  exact this code only

theorem wirActs_factory {code : BitVec 6} (only : code ∈ [0x01, 0x02, 0x20, 0x2F]) : wirActs true code = code := by
  have : ∀ c ∈ ([0x01, 0x02, 0x20, 0x2F] : List (BitVec 6)), wirActs true c = c := by decide
  exact this code only

theorem wirActs_debug (factory : Bool) (j : Fin 4) :
    wirActs factory (BitVec.ofNat 6 (0x18 + j.val)) = BitVec.ofNat 6 (0x18 + j.val) := by
  have : ∀ (f : Bool) (j : Fin 4), wirActs f (BitVec.ofNat 6 (0x18 + j.val)) = BitVec.ofNat 6 (0x18 + j.val) := by decide
  exact this factory j

/-- In factory mode a factory-only instruction has its effect. -/
theorem factoryWir_factory {code : BitVec 6} {f : State → State} (only : code ∈ [0x01, 0x02, 0x20, 0x2F])
    (factory : s.mgmt.fuse.factory = true) : s.factoryWir code f = f (s.updBoot fun b => { b with wir := code }) := by
  unfold State.factoryWir
  rw [setWir_eq (factory ▸ wirActs_factory only)]
  exact if_pos rfl

/-- Outside it, it acts as WS_BYPASS. -/
theorem factoryWir_field {code : BitVec 6} {f : State → State} (only : code ∈ [0x01, 0x02, 0x20, 0x2F])
    (field : s.mgmt.fuse.factory = false) : s.factoryWir code f = s.updBoot fun b => { b with wir := 0 } := by
  have none : (0 : BitVec 6) ≠ code := by
    have : ∀ c ∈ ([0x01, 0x02, 0x20, 0x2F] : List (BitVec 6)), 0 ≠ c := by decide
    exact this code only
  unfold State.factoryWir
  rw [setWir_eq (field ▸ wirActs_field only)]
  exact if_neg none

theorem exec_wsBypass (s : State) : exec .wsBypass s = .next (s.updBoot fun b => { b with wir := 0 }) :=
  congrArg Host.Outcome.next (setWir_eq rfl)

/-! ## The BIST instructions (R456, R457) -/

theorem bistLaunch_eq (mask : BitVec 88) : s.bistLaunch mask =
    if s.boot.rstN || s.boot.ph == .off then s.updBoot fun b => { b with wir := 0x10 }
    else if s.mgmt.fuse.factory || mask.setWidth 85 == BitVec.allOnes 85 then
      s.updBoot fun b => { b with wir := 0x10, armed := some mask, launchRefused := false }
    else s.updBoot fun b => { b with wir := 0x10, launchRefused := true } := by
  unfold State.bistLaunch
  rw [setWir_eq (act := 0x10) (by cases s.mgmt.fuse.factory <;> rfl)]
  rfl

end


section
variable {s : State}

theorem mask_setWidth (mask : BitVec 88) : mask.setWidth 85 = mask.extractLsb' 0 85 :=
  BitVec.setWidth_eq_extractLsb' (by decide)

theorem bistLaunch_accepted {mask : BitVec 88} (low : s.boot.rstN = false) (on : s.boot.ph ≠ .off)
    (may : s.mgmt.fuse.factory = true ∨ mask.extractLsb' 0 85 = BitVec.allOnes 85) :
    s.bistLaunch mask = s.updBoot fun b => { b with wir := 0x10, armed := some mask, launchRefused := false } := by
  rw [bistLaunch_eq, if_neg (by simp [low, on]), if_pos (by simpa [mask_setWidth] using may)]

theorem bistLaunch_refused {mask : BitVec 88} (low : s.boot.rstN = false) (on : s.boot.ph ≠ .off)
    (field : s.mgmt.fuse.factory = false) (some_ : mask.extractLsb' 0 85 ≠ BitVec.allOnes 85) :
    s.bistLaunch mask = s.updBoot fun b => { b with wir := 0x10, launchRefused := true } := by
  rw [bistLaunch_eq, if_neg (by simp [low, on]), if_neg (by simpa [mask_setWidth, field] using some_)]

theorem bistLaunch_late {mask : BitVec 88} (late : s.boot.rstN = true ∨ s.boot.ph = .off) :
    s.bistLaunch mask = s.updBoot fun b => { b with wir := 0x10 } := by
  rw [bistLaunch_eq, if_pos (by simpa using late)]

/-- R456: bit by bit, what the result register captures, from its lowest field up. -/
theorem bistWord_bit (b : Boot) (i : Nat) : b.bistWord.getLsbD i =
    if i < 64 then b.bistCh.getLsbD i else if i - 64 < 20 then b.bistMod.getLsbD (i - 64)
    else if i - 84 < 1 then decide (i - 84 = 0) && b.bistMgmt == 3 else if i - 85 < 1 then decide (i - 85 = 0) && b.bistValid
    else if i - 86 < 1 then decide (i - 86 = 0) && b.launchRefused else if i - 87 < 1 then false
    else if i - 88 < 4 then b.groupsRun.getLsbD (i - 88) else false := by
  unfold Boot.bistWord bit1
  change BitVec.getLsbD (w := 4 + 4 + 1 + 1 + 1 + 1 + 20 + 64) _ i = _
  simp only [BitVec.getLsbD_append]
  simp only [BitVec.getLsbD_ofBool, BitVec.ofNat_eq_ofNat, BitVec.getLsbD_zero, Nat.sub_sub, Nat.reduceAdd]

/-- The fields of the result register. -/
theorem bistWord_fields (b : Boot) : b.bistWord.extractLsb' 0 64 = b.bistCh ∧ b.bistWord.extractLsb' 64 20 = b.bistMod ∧
    b.bistWord.getLsbD 84 = (b.bistMgmt == 3) ∧ b.bistWord.getLsbD 85 = b.bistValid ∧
    b.bistWord.getLsbD 86 = b.launchRefused ∧ b.bistWord.extractLsb' 88 4 = b.groupsRun := by
  refine ⟨BitVec.eq_of_getLsbD_eq fun i hi => ?_, BitVec.eq_of_getLsbD_eq fun i hi => ?_, bistWord_bit b 84,
    bistWord_bit b 85, bistWord_bit b 86, BitVec.eq_of_getLsbD_eq fun i hi => ?_⟩
  · rw [BitVec.getLsbD_extractLsb', bistWord_bit, decide_eq_true hi, Bool.true_and, Nat.zero_add, if_pos hi]
  · rw [BitVec.getLsbD_extractLsb', bistWord_bit, decide_eq_true hi, Bool.true_and, Nat.add_sub_cancel_left,
      if_neg (by omega), if_pos hi]
  · rw [BitVec.getLsbD_extractLsb', bistWord_bit, decide_eq_true hi, Bool.true_and, Nat.add_sub_cancel_left]
    simp (disch := omega) only [if_neg, if_pos]

theorem exec_ghBistResult (s : State) : exec .ghBistResult s = .next (s.updBoot fun b =>
    { b with wir := 0x11, dr := { b with wir := (0x11 : BitVec 6) }.bistWord }) := by
  show Host.Outcome.next ((s.setWir 0x11).updBoot _) = _
  rw [setWir_eq (act := 0x11) (by cases s.mgmt.fuse.factory <;> rfl)]
  rfl

end

/-! ## The debug paths (R456) -/

/-- A value that an element has already changes nothing. -/
theorem upd_const_self {α : Type} {n : Nat} {v : Vector α n} {i : Fin n} {x : α} (same : v.get i = x) :
    upd v i (fun _ => x) = v := by
  subst same
  unfold upd
  exact Vector.set_getElem_self i.isLt

section
variable {s : State} {j : Fin 4} {u : BitVec 64} {w : Word}

theorem dbgReg_starts (idle : s.boot.dbgBusy.get j = false) (on : s.mgmtOn = true) : s.dbgReg j u =
    (s.updBoot fun b => { b with wir := BitVec.ofNat 6 (0x18 + j.val) }).access
      { who := dbgIdent j, org := .debug j, off := u.extractLsb' 32 24,
        wr := if u.getLsbD 63 then some (u.extractLsb' 0 32) else none } := by
  unfold State.dbgReg
  rw [setWir_eq (wirActs_debug _ j)]
  exact if_neg (by
    show ¬ (s.boot.dbgBusy.get j || !s.mgmtOn) = true
    rw [idle, on]
    decide)

theorem dbgReg_dropped (busy : s.boot.dbgBusy.get j = true ∨ s.mgmtOn = false) :
    s.dbgReg j u = s.updBoot fun b => { b with wir := BitVec.ofNat 6 (0x18 + j.val) } := by
  unfold State.dbgReg
  rw [setWir_eq (wirActs_debug _ j)]
  exact if_pos (by
    show (s.boot.dbgBusy.get j || !s.mgmtOn) = true
    rcases busy with busy | off
    · rw [busy, Bool.true_or]
    · rw [off, Bool.not_false, Bool.or_true])

/-- No register shows the instruction of the wrapper. -/
theorem peek_updBoot_wir (wir : BitVec 6) (o : Nat) : (s.updBoot fun b => { b with wir := wir }).peek o = s.peek o := rfl

/-- R397: the read of an ordinary register that has power. -/
theorem readReg_plain {a : Access} (noMb : mbOf a.off.toNat = none) (noSem : semOf a.off.toNat = none)
    (power : s.regOff a.off.toNat = false) : s.readReg a w = (.ok w, s) := by
  unfold State.readReg
  simp only [noMb, noSem, power, Bool.false_eq_true, if_false]

/-- R400: the reads of an MC cycle leave nothing for the writes of it to order. -/
theorem performOrdered_read {a : Access} (read : a.wr = none) : s.performOrdered a = s.perform a := by
  unfold State.performOrdered
  rw [read]

/-- R456: a read of the path ends with its word in the data register. -/
theorem accAnswer_debug_read {a : Access} (path : a.org = .debug j) (read : a.wr = none) (idle : s.boot.dbgBusy.get j = false) :
    s.accAnswer a (.ok w) = s.updBoot fun b => { b with dbgRes := upd b.dbgRes j fun _ => dbgWord false false 0 a.off w } := by
  unfold State.accAnswer State.updBoot
  rw [path, read]
  dsimp only
  rw [upd_const_self idle]
  rfl

/-- A read over a debug path shows the word at once. -/
theorem access_debug_read {a : Access} (path : a.org = .debug j) (read : a.wr = none) (idle : s.boot.dbgBusy.get j = false)
    (plain : plainOff a.off.toNat = true) (power : s.regOff a.off.toNat = false) (word : s.peek a.off.toNat = some w) :
    s.access a = s.updBoot fun b => { b with dbgRes := upd b.dbgRes j fun _ => dbgWord false false 0 a.off w } := by
  unfold plainOff at plain
  simp only [Bool.and_eq_true, decide_eq_true_eq, Option.isNone_iff_eq_none, bne_iff_ne, beq_iff_eq] at plain
  obtain ⟨⟨⟨⟨⟨⟨-, low⟩, noWindow⟩, noMb⟩, noSem⟩, noPop⟩, -⟩ := plain
  unfold State.access
  rw [if_neg (by rw [path]; exact Origin.noConfusion), performOrdered_read read, perform_read low noWindow noPop word read,
    readReg_plain noMb noSem power]
  exact accAnswer_debug_read path read idle

end

section
variable {s : State} {j : Fin 4} {u : BitVec 64} {w : Word}

theorem dbgReg_reads (idle : s.boot.dbgBusy.get j = false) (on : s.mgmtOn = true) (read : u.getLsbD 63 = false)
    (plain : plainOff (u.extractLsb' 32 24).toNat = true) (power : s.regOff (u.extractLsb' 32 24).toNat = false)
    (word : s.peek (u.extractLsb' 32 24).toNat = some w) : s.dbgReg j u = s.updBoot fun b => { b with
      wir := BitVec.ofNat 6 (0x18 + j.val), dbgRes := upd b.dbgRes j fun _ => (0 : BitVec 8) ++ u.extractLsb' 32 24 ++ w } := by
  rw [dbgReg_starts idle on, read]
  exact access_debug_read (s := s.updBoot fun b => { b with wir := BitVec.ofNat 6 (0x18 + j.val) }) rfl rfl idle plain power
    ((peek_updBoot_wir _ _).trans word)

end

/-! ## Closing the factory (R445, R447, R450) -/

section
variable {s : State}

theorem mayClose_iff (f : Fuses) : f.mayClose = true ↔ (∀ r ∈ [0, 1, 2, 3, 5], f.locked.getLsbD r = true) ∧
    ∀ i < 12, f.unusable.contains (738 + i) = false ∧ (fuseDecode (f.raw (738 + i))).isSome = true ∧ f.raw (738 + i) ≠ 0 := by
  unfold Fuses.mayClose
  simp only [Bool.and_eq_true, List.all_eq_true, List.mem_range, Bool.not_eq_true', bne_iff_ne, and_assoc]
  rfl

/-- R484: no operation starts before the acknowledge reads low. -/
theorem fuseGo_of_ackHigh (high : s.mgmt.fuse.ackHigh = true) : s.fuseGo = s := by
  unfold State.fuseGo
  exact if_pos (by rw [high, Bool.or_true, Bool.true_or])

theorem factoryClose_none {v : Word} (factory : s.mgmt.fuse.factory = true)
    (missing : v ≠ 0x00C105ED ∨ s.mgmt.fuse.mayClose = false) :
    s.factoryClose v = s.updBoot fun b => { b with wir := 0x2F } := by
  unfold State.factoryClose
  rw [factoryWir_factory (by decide) factory]
  refine if_pos ?_
  rcases missing with word | locks
  · exact .inl word
  · exact .inr (.inr (.inl (by simp [locks])))

theorem factoryClose_starts (factory : s.mgmt.fuse.factory = true) (on : s.mgmtOn = true) (may : s.mgmt.fuse.mayClose = true)
    (free : s.mgmt.fuse.cmd = none) (high : s.mgmt.fuse.ackHigh = true) :
    s.factoryClose 0x00C105ED = (s.updBoot fun b => { b with wir := 0x2F }).updFuse fun f => { f with
      cmd := some { by_ := none, op := 0, region := 7, off := 0, count := 1, done := 0, base := 0, margin := false, vals := [],
                    stage := 3, progs := lockOps 7 } } := by
  unfold State.factoryClose
  rw [factoryWir_factory (by decide) factory]
  refine (if_neg ?_).trans ?_
  · rintro (word | off | locks | busy)
    · exact word rfl
    · exact Bool.false_ne_true ((congrArg not on).symm.trans off)
    · exact Bool.false_ne_true ((congrArg not may).symm.trans locks)
    · exact Bool.false_ne_true ((congrArg Option.isSome free).symm.trans busy)
  · unfold State.lockStart
    rw [if_neg (by decide)]
    exact fuseGo_of_ackHigh high

end

/-! ## Debug snapshots (R458) -/

section
variable {s : State} {who : Ident} {n : Ch} {v : Word} {r : Nat}

theorem peek_chan (n : Ch) (high : r < 0x4000) (aligned : r % 4 = 0) : s.peek (offChan n r) = s.readChan n r := by
  unfold State.peek offChan
  simp (disch := omega) only [if_neg]
  rw [if_pos (by omega), show (0x200000 + 0x4000 * n.val + r - 0x200000) / 0x4000 = n.val by omega,
    show (0x200000 + 0x4000 * n.val + r) % 0x4000 = r by omega]
  exact congrArg (fun k => s.readChan k r) (Fin.ext (Nat.mod_eq_of_lt n.isLt))

theorem regOff_chan (high : r < 0x4000) (power : s.quadOn n = true) : s.regOff (offChan n r) = false := by
  have quad : regDom (offChan n r) = some (quadDom (quadOf n).val) := by
    unfold regDom offChan
    simp (disch := omega) only [if_neg]
    rw [if_pos (by omega), show (0x200000 + 0x4000 * n.val + r) % 0x100000 / 0x4000 / 4 = n.val / 4 by omega]
    exact congrArg (fun q => some (quadDom q)) (Nat.mod_eq_of_lt (by omega)).symm
  unfold State.regOff
  rw [quad]
  show (!s.quadOn n && _) = false
  rw [power]
  rfl

/-- An offset of the two index words of a channel's debug windows. -/
theorem dbgIdx_place (index : r = 0x3F00 ∨ r = 0x3F20) :
    isFwRange (offChan n r) = true ∧ isDbgIdx (offChan n r) = true ∧ isDbgData (offChan n r) = false := by
  have mod : offChan n r % 0x4000 = r := by unfold offChan; omega
  unfold isFwRange isDbgIdx isDbgData
  rw [mod]
  have low : 0x200000 ≤ offChan n r := by unfold offChan; omega
  have high : offChan n r < 0x300000 := by unfold offChan; omega
  rcases index with rfl | rfl <;> simp [low, high] <;> omega

/-- R398, R458: the write of an index word, with the checks of firmware's range. -/
theorem direct_dbgIdx (on : s.mgmtOn = true) (index : r = 0x3F00 ∨ r = 0x3F20) (word : ∃ w, s.readChan n r = some w)
    {p : AccRes × State}
    (does : s.writeFwRange { who := who, org := .direct, off := BitVec.ofNat 24 (offChan n r), wr := some v } v = p) :
    s.direct who (offChan n r) (some v) = answered p.2 p.1 := by
  obtain ⟨w, word⟩ := word
  have low : 0x200000 ≤ offChan n r := by unfold offChan; omega
  have high : offChan n r < 0x300000 := by unfold offChan; omega
  have off : (BitVec.ofNat 24 (offChan n r)).toNat = offChan n r := toNat_ofNat24 (by omega)
  have noWindow : windowOf (offChan n r) = none := if_neg (by omega)
  refine direct_of_perform on (.trans (perform_write (w := w) (by dsimp only; omega) (by rwa [off]) (by dsimp only; omega) ?_ rfl) ?_)
  · rw [off, peek_chan n (by omega) (by omega), word]
  · unfold State.writeReg
    simp only [off, (dbgIdx_place index).1, if_true, does]

theorem writeFwRange_snapshot (power : s.quadOn n = true) (index : r = 0x3F00 ∨ r = 0x3F20)
    (may : who = fwIdent ∨ identClass who = 2) :
    s.writeFwRange { who := who, org := .direct, off := BitVec.ofNat 24 (offChan n r), wr := some v } v =
      (.ok 0, s.snapshot n (r == 0x3F20) v) := by
  obtain ⟨-, isIdx, -⟩ := dbgIdx_place (n := n) index
  have off : (BitVec.ofNat 24 (offChan n r)).toNat = offChan n r := toNat_ofNat24 (by unfold offChan; omega)
  have chan : Fin.ofNat 64 ((offChan n r - 0x200000) / 0x4000) = n := by
    unfold offChan
    rw [show (0x200000 + 0x4000 * n.val + r - 0x200000) / 0x4000 = n.val by omega]
    exact Fin.ext (Nat.mod_eq_of_lt n.isLt)
  have mod : offChan n r % 0x4000 = r := by unfold offChan; omega
  unfold State.writeFwRange
  simp only [off, if_pos (And.intro isIdx may), regOff_chan (show r < 0x4000 by omega) power, Bool.false_eq_true, if_false, chan, mod]

theorem writeFwRange_denied (index : r = 0x3F00 ∨ r = 0x3F20) (notFw : who ≠ fwIdent) (notDbg : identClass who ≠ 2) :
    s.writeFwRange { who := who, org := .direct, off := BitVec.ofNat 24 (offChan n r), wr := some v } v =
      (.err errDENIED, s) := by
  obtain ⟨-, -, noData⟩ := dbgIdx_place (n := n) index
  have off : (BitVec.ofNat 24 (offChan n r)).toNat = offChan n r := toNat_ofNat24 (by unfold offChan; omega)
  unfold State.writeFwRange
  simp only [off, notFw, notDbg, noData, or_self, and_false, Bool.false_eq_true, if_false]

end

/-- Settles O60: the instructions of the wrapper one by one, then the two snapshots. -/
theorem wrapper : Obligations.Wrapper := by
  unfold Obligations.Wrapper
  refine ⟨⟨exec_wsBypass, fun s factory => ⟨?_, ?_, ?_⟩, fun v s field => ⟨?_, ?_, ?_, ?_⟩, fun mask s low on => ⟨fun may => ?_,
    fun field some_ => ?_⟩, fun mask s late => ?_, fun s => ?_, fun j u s idle on => ?_, fun j u s busy => ?_,
    fun j u w s idle on read plain power word => ?_, mayClose_iff, fun s factory on may free high => ?_,
    fun v s factory missing => ?_⟩, fun who n v s on power => ⟨fun may => ⟨?_, ?_⟩, fun notFw notDbg => ⟨?_, ?_⟩⟩⟩
  · exact congrArg Host.Outcome.next (factoryWir_factory (by decide) factory)
  · exact congrArg Host.Outcome.next (factoryWir_factory (by decide) factory)
  · exact congrArg Host.Outcome.next (factoryWir_factory (by decide) factory)
  · exact (congrArg Host.Outcome.next (factoryWir_field (by decide) field)).trans (exec_wsBypass s).symm
  · exact (congrArg Host.Outcome.next (factoryWir_field (by decide) field)).trans (exec_wsBypass s).symm
  · exact (congrArg Host.Outcome.next (factoryWir_field (by decide) field)).trans (exec_wsBypass s).symm
  · exact (congrArg Host.Outcome.next (factoryWir_field (by decide) field)).trans (exec_wsBypass s).symm
  · exact congrArg Host.Outcome.next (bistLaunch_accepted low on may)
  · exact congrArg Host.Outcome.next (bistLaunch_refused low on field some_)
  · exact congrArg Host.Outcome.next (bistLaunch_late late)
  · obtain ⟨ch, mods, mgmt, valid, refused, groups⟩ := bistWord_fields { s.boot with wir := (0x11 : BitVec 6) }
    exact ⟨_, exec_ghBistResult s, rfl, ch, mods, mgmt, valid, refused, groups, rfl, rfl, rfl⟩
  · exact congrArg Host.Outcome.next (dbgReg_starts idle on)
  · exact congrArg Host.Outcome.next (dbgReg_dropped busy)
  · exact congrArg Host.Outcome.next (dbgReg_reads idle on read plain power word)
  · exact congrArg Host.Outcome.next (factoryClose_starts factory on may free high)
  · exact congrArg Host.Outcome.next (factoryClose_none factory missing)
  · exact congrArg Host.Outcome.next (direct_dbgIdx on (.inl rfl) ⟨_, rfl⟩ (writeFwRange_snapshot power (.inl rfl) may))
  · exact congrArg Host.Outcome.next (direct_dbgIdx on (.inr rfl) ⟨_, rfl⟩ (writeFwRange_snapshot power (.inr rfl) may))
  · exact congrArg Host.Outcome.next (direct_dbgIdx on (.inl rfl) ⟨_, rfl⟩ (writeFwRange_denied (.inl rfl) notFw notDbg))
  · exact congrArg Host.Outcome.next (direct_dbgIdx on (.inr rfl) ⟨_, rfl⟩ (writeFwRange_denied (.inr rfl) notFw notDbg))

end Sys2Proof.Machine
end

section
/-! PROOFS. The owner's take of an outbound word, and what a reset may follow it. -/

namespace Sys2Proof.Machine

/-! ## An answer to FW_COMMIT under a tag for which a warm reset is asked (R348, R391, R393)

Taking an answer OK starts the warm reset that is asked for under its tag, and the answers that a reset follows are those of RESET
and of FW_COMMIT. The statement leaves out the opcode of RESET alone. -/

/-- The block is up; MB2 holds the answer OK to FW_COMMIT under tag 1, and under that tag a warm reset is asked for. -/
def commitAnswered : State :=
  (((State.reset.updPwr fun p => { p with dom := Vector.replicate 39 4 }).updBoot fun b => { b with ph := .up }).updMb 2 fun b =>
      { b with owner := some 0x21, outFull := true,
               out := ({ opcode := 0x69, tag := 1, status := stOK, result := 0 } : Answer).word }).updFw fun f =>
    { f with resetAsks := [(2, 1, true)] }

/-- The take starts the warm reset. -/
theorem commitAnswered_resets : ∃ t, exec (.outTake 0x21 2 1) commitAnswered = .next t ∧ t.boot.ph = .warm 1 :=
  ⟨_, rfl, by decide +kernel⟩

/-- Refutes O31: at `commitAnswered` the take does not end with the tag free, the block as it was. -/
theorem not_mailboxFirmware : ¬ Obligations.MailboxFirmware := by
  unfold Obligations.MailboxFirmware
  rintro ⟨⟨-, -, -, take, -⟩, -⟩
  obtain ⟨t, resets, warm⟩ := commitAnswered_resets
  have same := (take 0x21 2 1 commitAnswered (by decide +kernel) (by decide +kernel) (by decide +kernel) (by decide +kernel)
    (by decide +kernel) (by decide +kernel)).symm.trans resets
  cases Host.Outcome.next.inj same
  exact absurd warm (by decide +kernel)

end Sys2Proof.Machine
end

section
/-! PROOFS. The start of a channel reset: what it writes back. -/

namespace Sys2Proof.Machine

/-! ## A pair's write in the table of a channel of its own (R108, R282, R474)

A channel reset that finds the core dies active first has the accepted writes of the table reach them; a write of a pair's line
goes to both channels of the pair. The statement asks that the channel's pair is not joined, and not that its table holds no
write of a pair's line; the burst of one is kept in the write buffer of the other channel's die where that has its training mode on. -/

/-- An accepted write of a pair's line. -/
def pairWrite : Entry :=
  { idx := 0, st := .wait, kind := .wr64, cls := 3, gport := 33, tag := 5, loc := ⟨0, 0, 0, 0, 0, 0⟩, twin := true,
    mask := fullMask true }

/-- RESET of channel 5, under tag 1. -/
def resetOfFive : Word := (0x21 : BitVec 11) ++ (0x78 : BitVec 7) ++ (1 : BitVec 2) ++ (0x205 : BitVec 12)

/-- Firmware has taken that command from MB3; `pairWrite` waits in channel 5, and the SID0 die of channel 37 writes to its write
buffer. -/
def writeInTraining : State :=
  (((((State.reset.updPwr fun p => { p with dom := Vector.replicate 39 4 }).updBoot fun b => { b with ph := .up }).updMap fun q =>
      { q with mapped := BitVec.allOnes 64, nsid := 1 }).updFw fun f => { f with st := .ready }).updMb 3 fun b =>
        { b with cmds := [{ tag := 1, word := resetOfFive, running := false }] }).updChan 5 (fun c =>
      c.updSt fun x => { x with tt := [pairWrite] }) |>.updChan 37 fun c =>
    { c with dies := upd c.dies 0 fun d => { d with mr := [(0x78, 2)] } }

theorem writeInTraining_asks : Asks writeInTraining 3 1 resetOfFive :=
  ⟨by decide +kernel, by decide +kernel, by decide +kernel, by decide +kernel⟩

/-- The reset of channel 5 leaves the write in the die of channel 37. -/
theorem writeInTraining_writes :
    (((writeInTraining.resetChannel 3 1).chan.get 37).dies.get 0).buf ≠ ((writeInTraining.chan.get 37).dies.get 0).buf := by
  decide +kernel

/-- Refutes O56: the reset of channel 5 in `writeInTraining` does not leave channel 37 as it was. -/
theorem not_exauxInfo : ¬ Obligations.ExauxInfo := by
  unfold Obligations.ExauxInfo
  rintro ⟨-, -, -, -, -, -, -, -, -, -, -, reset⟩
  obtain ⟨t, next, -, -, -, -, -, -, others, -⟩ := reset 3 1 resetOfFive 5 writeInTraining writeInTraining_asks (by decide +kernel)
    (by decide +kernel) (by decide +kernel) (by decide +kernel) (by decide +kernel) (by decide +kernel) (by decide +kernel)
    (by decide +kernel) (by decide +kernel) (by decide +kernel)
  have after : writeInTraining.resetChannel 3 1 = t := Host.Outcome.next.inj next
  exact writeInTraining_writes (after ▸ congrArg (fun c => (c.dies.get 0).buf) (others 37 (by decide)))

end Sys2Proof.Machine
end
